-- ==== Sys2Proof/Word.lean ====
section
/-! DEFINITION. The byte, the one word of the port, the hall line and the flash (spec/12_formats.md). -/

namespace Sys2Proof

/-- One byte of a frame, a record or the tariff image. -/
abbrev Byte := BitVec 8

/-- A sequence of bytes, the first byte sent first. -/
abbrev Bytes := List Byte

end Sys2Proof
end

