-- ==== Sys2Proof/Config.lean ====
section
/-! DEFINITION. What the part fixes and the one value the manual leaves open. -/

namespace Sys2Proof.Config

/-- The factory serial of HELLO, "a number set in each part at manufacture" (R159): a free constant, log entry 7.
Safe: nothing can be proved of its value. -/
opaque factorySerial : BitVec 32

/-- The money limit of R17, 999,999,900 sub-cents. -/
def moneyLimit : Nat := 999999900

/-- The charged amount of a clamped record and the base at the limit in cents (R19). -/
def clampedCents : Nat := 9999999

/-- A counter stays at this value (R94). -/
def counterTop : Nat := 65535

/-- The station clock holds at this minute (R96). -/
def clockTop : Nat := 2879

/-- A sequence counter of this value is exhausted (R165). -/
def exhausted : Nat := 100000

/-- Number of ring slots (R56). -/
def slotCount : Nat := 8

/-- Number of lot-table entries (R101). -/
def entryCount : Nat := 48

/-- Number of presence records (R161). -/
def stationLimit : Nat := 32

/-- The fault timer of R155, in ms. -/
def faultTime : Nat := 10000

/-- The beacon timer of R159, in ms. -/
def beaconTime : Nat := 20000

/-- The absence timer of R161, in ms. -/
def absenceTime : Nat := 60000

/-- One minute of the station clock in ms of the internal timebase (R96). -/
def minuteTime : Nat := 60000

/-- Failed attempts in a row that take the line to FAULTED (R154). -/
def attemptLimit : Nat := 8

/-- Expiries of a fetch timer that end an asking (R130). -/
def expiryLimit : Nat := 3

/-- Most sections taken into the walk (R31). -/
def walkLimit : Nat := 16

/-- First address past the tariff image (R30). -/
def imageSize : Nat := 65536

end Sys2Proof.Config
end

