-- ==== Sys2Proof/Syntax.lean ====
section
/-! DEFINITION. The commands: one constructor per row of spec/opcode_table.json, with the records and frames they carry,
every field as submitted or received, before any check (R60, R187). -/

namespace Sys2Proof

/-- The parcel record of R182, fields as submitted (R60). Codes are kept as numbers: an unknown code is placed all the
same and met at rating. -/
structure ParcelRecord where
  terminalTag   : Nat
  service       : Nat
  options       : Byte
  weight        : Nat
  length        : Nat
  width         : Nat
  height        : Nat
  destination   : Bytes
  declaredValue : Nat
  pieceMark     : Nat
  deriving DecidableEq, Repr

/-- One of the 16 entries of a screen record: a length code and six characters (R50, R182). -/
structure ScreenEntry where
  length     : Nat
  characters : Bytes
  deriving DecidableEq, Repr

/-- A screen record without its terminal tag, also the body of a SCREEN DEFAULT section (R50, R184). -/
structure ScreenBody where
  kind      : Nat
  inverse   : Nat
  count     : Nat
  entries   : List ScreenEntry
  hashTable : BitVec 512
  deriving DecidableEq, Repr

/-- The screen record of R50. -/
structure ScreenRecord where
  terminalTag : Nat
  body        : ScreenBody
  deriving DecidableEq, Repr

/-- The configuration record of R176 as sent, before its check. -/
structure ConfigRecord where
  stationCount    : Nat
  stationNumber   : Nat
  day             : Nat
  timeOfDay       : Nat
  sequenceStart   : Nat
  networkPrefix   : Bytes
  expectedEdition : Nat
  openingFlag     : Nat
  fetchTimeout    : Nat
  publishDelay    : Nat
  watchdog        : Nat
  maskClearing    : Byte
  deriving DecidableEq, Repr

/-- What SUBMIT carries: a parcel record, a screen record, or a record kind that names neither (R60, R183). -/
inductive Submission where
  | parcel (r : ParcelRecord)
  | screen (r : ScreenRecord)
  | unknownKind (code : Nat)
  deriving DecidableEq, Repr

/-- The argument of CLEAR: a flag count and the flag codes (R182). -/
structure FlagList where
  count : Nat
  codes : List Nat
  deriving DecidableEq, Repr

/-- A command frame that reaches no command: its code names none of the ten, its length does not fit (R173 check 1), or
it is a RESET whose argument names neither WARM nor FULL (R183; log entry 10). -/
inductive UnknownFrame where
  | code (c : Nat)
  | length (c : Nat) (argumentLength : Nat)
  | resetArgument (a : Nat)
  deriving DecidableEq, Repr

/-- The tariff image in the serial flash, as address and byte; an address not listed reads FFH, as a blank flash does
(R29; log entry 6). -/
abbrev Flash := List Host.Cell

/-- A lot's figures: weight in grams, litres and pieces (R103). -/
structure Figures where
  weight : Nat
  litres : Nat
  pieces : Nat
  deriving DecidableEq, Repr

/-- The body of a HANDOVER (R120, R186). -/
structure HandoverBody where
  recipient : Nat
  lot       : Nat
  figures   : Figures
  reclaimed : Nat
  queue     : List Nat
  deriving DecidableEq, Repr

/-- A hall line frame's body by kind (R120, R148, R186). A frame of kind 7 names nothing, and its body is not read. -/
inductive FrameBody where
  | handover (b : HandoverBody)
  | reclaim (lot : Nat) (figures : Figures)
  | tally (lot : Nat) (figures : Figures)
  | fetch (lot : Nat)
  | stall (lot : Nat)
  | notice (lot : Nat) (figures : Figures)
  | hello (edition : Nat) (serial : BitVec 32)
  | unknown (content : Bytes)
  deriving DecidableEq, Repr

/-- A hall line frame: the sender's station number from the header byte, and the body (R148). -/
structure HallFrame where
  sender : Nat
  body   : FrameBody
  deriving DecidableEq, Repr

/-- A frame as one receiver read it up to the acceptance slot: the bytes from the header byte to the CRC, and whether
every separator bit read dominant (R148, R152). -/
structure Reception where
  bytes              : Bytes
  separatorsDominant : Bool
  deriving DecidableEq, Repr

/-- The record whose fetch timer expires: a home record by its lot, or a lot-table entry by its number (R97). -/
inductive RecordRef where
  | home (lot : Nat)
  | entry (number : Nat)
  deriving DecidableEq, Repr

/-- The commands and events of the part, one per row of spec/opcode_table.json. -/
inductive Instr where
  -- terminal commands (10_terminal_port_and_station_start_up.md)
  | configure (r : ConfigRecord)
  | submit (r : Submission)
  | collect (slot : Nat)
  | peek (slot : Nat)
  | withdraw (slot : Nat)
  | status
  | clearSummary (flags : FlagList)
  | lotView (lot : Nat)
  | leave
  | resetWarm
  | resetFull
  | unknownCommand (f : UnknownFrame)
  | commandDiscarded
  -- resets by pin, end of the load
  | powerOnReset
  | rstnRise
  | loadCompletes (flash : Flash)
  | loadFaults (flash : Flash)
  -- parcel ring
  | ratePositionActs
  | watchdogExpires
  -- clock and timers
  | clockAdvance
  | fetchTimerExpires (r : RecordRef)
  | publishTimerExpires (entry : Nat)
  | faultTimerExpires
  | beaconTimerExpires
  | absenceTimerExpires (station : Nat)
  -- hall line access
  | idleIntervalSeen
  | transmitStart
  | frameWinsLine
  | readbackFailure
  | readbackDuplicate
  | frameTruncated
  | frameRejected (r : Reception)
  -- accepted frames
  | handoverAccepted (sender : Nat) (b : HandoverBody)
  | reclaimAccepted (sender : Nat) (lot : Nat) (figures : Figures)
  | tallyAccepted (sender : Nat) (lot : Nat) (figures : Figures)
  | fetchAccepted (sender : Nat) (lot : Nat)
  | stallAccepted (sender : Nat) (lot : Nat)
  | noticeAccepted (sender : Nat) (lot : Nat) (figures : Figures)
  | helloAccepted (sender : Nat) (edition : Nat) (serial : BitVec 32)
  | unknownKindFrameAccepted (sender : Nat) (content : Bytes)
  | arbitrationLost
  deriving DecidableEq, Repr

end Sys2Proof
end

