-- ==== Sys2Proof/Machine/State.lean ====
section
/-! DEFINITION. The state of one station as plain data, block by block (00_scope.md, Block overview), the reasons a step
can stop, and the state after reset. INVENTORY.md, "State", lists every field with the rule that names it. -/

namespace Sys2Proof.Machine

/-! ## Rating and tariff values -/

/-- The four rounding modes of the tariff header (R6). -/
inductive RoundingMode where
  | halfUp | halfEven | up | down
  deriving DecidableEq, Repr

/-- The rounding-direction field of stage J (R7), in the order of its codes (R182). -/
inductive Direction where
  | exactly | up | down
  deriving DecidableEq, Repr

/-- A zone-table entry (R34); zone `none` is NONE. -/
structure ZoneEntry where
  zone   : Option Nat
  route  : Nat
  remote : Bool
  deriving DecidableEq, Repr

/-- One weight band: its upper bound and its ten charges (R10). -/
structure Band where
  bound   : Nat
  charges : List Nat
  deriving DecidableEq, Repr

/-- One row of SURCHARGES, in cents (R36). -/
structure Surcharges where
  oversize   : Nat
  remote     : Nat
  signature  : Nat
  saturday   : Nat
  fragile    : Nat
  restricted : Nat
  deriving DecidableEq, Repr

/-- The rate section of one service with its surcharge row joined (R35, R36). -/
structure RateSection where
  bands            : List Band
  excessStep       : Nat
  increments       : List Nat
  divisor          : Nat
  fuel             : Nat
  tax              : Nat
  insuranceAllowed : Bool
  freeThreshold    : Nat
  insuranceRate    : Nat
  minimumPremium   : Nat
  surcharges       : Surcharges
  deriving DecidableEq, Repr

/-- The services a departure takes (R39). -/
structure ServiceMask where
  economy  : Bool
  standard : Bool
  priority : Bool
  deriving DecidableEq, Repr

/-- A departure of the dispatch plan as the store holds it: plan capacity in grams, litres and pieces, the home already
substituted (R38, R39, R40). -/
structure Departure where
  route    : Nat
  index    : Nat
  cutOff   : Nat
  mask     : ServiceMask
  capacity : Figures
  home     : Nat
  deriving DecidableEq, Repr

/-- An entry of an exact screen: length 3 names a prefix, 6 a whole code (R44). -/
structure Place where
  length : Nat
  digits : Bytes
  deriving DecidableEq, Repr

/-- An active or default screen (R44). -/
inductive Screen where
  | places (inverse : Bool) (entries : List Place)
  | hashed (table : BitVec 512)
  deriving DecidableEq, Repr

/-- The decoded tariff image (R27). -/
structure Tariff where
  mode          : RoundingMode
  edition       : Nat
  firstDay      : Nat
  lastDay       : Nat
  zones         : List ZoneEntry
  economy       : RateSection
  standard      : RateSection
  priority      : RateSection
  discounts     : List Nat
  plan          : List Departure
  defaultScreen : Screen
  deriving DecidableEq, Repr

/-- The eight section kinds, in the order of R32. -/
inductive SectionKind where
  | zones | ratesEconomy | ratesStandard | ratesPriority | surcharges | discounts | dispatchPlan | screenDefault
  deriving DecidableEq, Repr

/-- The fault codes of a load, but NONE (R29, R32). -/
inductive LoadFault where
  | flashSilent | badMarker | badHeader | edition | dayRange
  | missing (k : SectionKind)
  | badCrc (k : SectionKind)
  | inconsistent (k : SectionKind)
  deriving DecidableEq, Repr

/-- The tariff store (R27). Its fault code is NONE but in FAULTED. -/
inductive TariffStore where
  | empty | loading
  | loaded (t : Tariff)
  | faulted (c : LoadFault)
  deriving DecidableEq, Repr

/-! ## Outcomes -/

/-- The ten refusal reasons, in the order of their codes (R89, R182). -/
inductive Reason where
  | invalid | noService | restricted | overflow | consignmentPeer | consignmentOrder | consignmentIncomplete
  | withdrawn | noDispatch | noNumber
  deriving DecidableEq, Repr

/-- The sixteen flags of the exception summary, in the order of their codes (R92, R182). -/
inductive Flag where
  | invalid | noService | restricted | overflow | inexact | consignmentPeer | noDispatch | noNumber | consignmentOrder
  | consignmentIncomplete | withdrawn | tariffFault | lineFault | duplicate | editionMismatch | lotReclaimed
  deriving DecidableEq, Repr

/-- The rating result that RU writes into a slot (R2). `refusal` is absent when the outcome is RATED; fields that carry no
meaning for the reason of a refusal are 0 (log entry 36). -/
structure RatingResult where
  refusal          : Option Reason
  zone             : Option Nat
  route            : Nat
  remote           : Bool
  volume           : Nat
  litres           : Nat
  chargeableWeight : Nat
  base             : Nat
  fuel             : Nat
  fixed            : Nat
  insurance        : Nat
  discount         : Nat
  tax              : Nat
  total            : Nat
  charge           : Nat
  direction        : Direction
  inexact          : Bool
  clamped          : Bool
  inspect          : Bool
  deriving DecidableEq, Repr

/-- The reject reasons of a screen record, with the failing entry where R50 gives one. -/
inductive RejectReason where
  | badKind | badCount
  | badLength (entry : Nat)
  | badDigit (entry : Nat)
  deriving DecidableEq, Repr

/-- The outcome of a completed screen record (R50). A refused one was withdrawn (R54). -/
inductive ScreenOutcome where
  | applied
  | rejected (r : RejectReason)
  | withdrawn
  deriving DecidableEq, Repr

/-- The screen result of R50. -/
structure ScreenResult where
  terminalTag : Nat
  outcome     : ScreenOutcome
  deriving DecidableEq, Repr

/-- The dispatch fields LC writes (R57): the route alone under Dispatch pending or a refusal (R109), the departure, its
cut-off, lot and reclaimed mark after a debit (R110). -/
structure DispatchFields where
  route           : Nat
  departure       : Nat
  cutOff          : Nat
  lot             : Nat
  dispatchPending : Bool
  reclaimedLot    : Bool
  deriving DecidableEq, Repr

/-- The label record of R169 with the marks of R170. `refusal` is absent when LABELLED. Fields without meaning hold 0 or
the filler (R91). -/
structure LabelRecord where
  terminalTag       : Nat
  refusal           : Option Reason
  errorSummary      : BitVec 16
  trackingNumber    : Bytes
  consignmentNumber : Bytes
  pieceIndex        : Nat
  charge            : Nat
  base              : Nat
  fuel              : Nat
  fixed             : Nat
  insurance         : Nat
  discount          : Nat
  tax               : Nat
  chargeableWeight  : Nat
  zone              : Option Nat
  route             : Nat
  departure         : Nat
  cutOff            : Nat
  lot               : Nat
  direction         : Direction
  inexact           : Bool
  clamped           : Bool
  inspect           : Bool
  dispatchPending   : Bool
  reclaimedLot      : Bool
  deriving DecidableEq, Repr

/-! ## Parcel ring -/

/-- The slot tags (R57), in the order of their codes. `complete` is DONE. -/
inductive Tag where
  | empty | queued | grouped | seeking | complete
  deriving DecidableEq, Repr

/-- What a slot holds as submitted (R57). -/
inductive Record where
  | parcel (r : ParcelRecord)
  | screen (r : ScreenRecord)
  deriving DecidableEq, Repr

/-- The consignment link: the member slots in ring order and this piece's index from 1 (R57). -/
structure Link where
  members : List Nat
  piece   : Nat
  deriving DecidableEq, Repr

/-- A slot record (R57). -/
structure Slot where
  tag          : Tag
  record       : Option Record
  link         : Option Link
  rating       : Option RatingResult
  screenResult : Option ScreenResult
  dispatch     : Option DispatchFields
  label        : Option LabelRecord
  deriving DecidableEq, Repr

/-- An EMPTY slot holds nothing (R57, R80). -/
def Slot.vacant : Slot := ⟨.empty, none, none, none, none, none, none⟩

/-- The open-consignment record (R56). -/
structure Consignment where
  members     : List Nat
  service     : Nat
  destination : Bytes
  deriving DecidableEq, Repr

/-- A timer: stopped, or running with the ms remaining. -/
abbrev Timer := Option Nat

/-- The parcel ring (R56). `takings` counts the records taken, the source of a request's taking order (R104). -/
structure Ring where
  slots        : List Slot
  put          : Nat
  rate         : Nat
  pendingCount : Nat
  consignment  : Option Consignment
  watchdog     : Timer
  takings      : Nat
  deriving DecidableEq, Repr

/-- The ring after every reset (R80). -/
def Ring.cleared : Ring := ⟨List.replicate Config.slotCount Slot.vacant, 0, 0, 0, none, none, 0⟩

/-! ## Rating unit's summary and counters -/

/-- The exception summary, bit r being the flag of code r, and the three counters (R92, R94). -/
structure RatingUnit where
  summary        : BitVec 16
  labelsIssued   : Nat
  recordsRefused : Nat
  framesRejected : Nat
  deriving DecidableEq, Repr

/-! ## Station and configuration -/

/-- The station states (R174), in the order of their codes. -/
inductive StationState where
  | unconfigured | loading | ready | tariffFault | leaving | serving
  deriving DecidableEq, Repr

/-- The configuration record as stored, its defaults resolved (R176, R177). A mask that is set labels, a clear one
refuses (R83). -/
structure Configuration where
  stationCount    : Nat
  stationNumber   : Nat
  day             : Nat
  timeOfDay       : Nat
  sequenceStart   : Nat
  networkPrefix   : Bytes
  expectedEdition : Nat
  opening         : Bool
  fetchTimeout    : Nat
  publishDelay    : Nat
  watchdog        : Nat
  restrictedMask  : Bool
  overflowMask    : Bool
  noDispatchMask  : Bool
  deriving DecidableEq, Repr

/-- The station clock: the minute, and the ms already counted of it (R96). -/
structure StationClock where
  minute  : Nat
  elapsed : Nat
  deriving DecidableEq, Repr

/-! ## Lot controller -/

/-- A departure on a candidate list (R104). -/
structure Candidate where
  lot    : Nat
  cutOff : Nat
  deriving DecidableEq, Repr

/-- A dispatch request (R104). `figures` are its weight, litres and pieces; `next` is the place in the candidate list of
the candidate to be tried next. -/
structure Request where
  members    : List Nat
  order      : Nat
  service    : Nat
  route      : Nat
  figures    : Figures
  candidates : List Candidate
  next       : Nat
  waitingOn  : Option Nat
  deriving DecidableEq, Repr

/-- The kinds of hall line frame, in the order of their codes, the lot frames' priorities (R120, R148). -/
inductive FrameKind where
  | handover | reclaim | tally | fetch | stall | notice | hello
  deriving DecidableEq, Repr

/-- A pending frame: its kind, the recipient fixed at queuing (meaningful in a HANDOVER, R125) and its queuing time as
an order number (R146; log entry 4). -/
structure PendingFrame where
  kind      : FrameKind
  recipient : Nat
  queuedAt  : Nat
  deriving DecidableEq, Repr

/-- The states of a home record (R99), in the order of their codes. -/
inductive HomeState where
  | atHome | away | unknown | askingHome | ended
  deriving DecidableEq, Repr

/-- A home record (R98). `figures` is present in AT_HOME and ENDED and zero elsewhere. -/
structure HomeRecord where
  lot         : Nat
  state       : HomeState
  figures     : Figures
  lastSeen    : Option Figures
  reclaimed   : Bool
  queue       : List Nat
  handingOver : Bool
  attempts    : Nat
  fetchTimer  : Timer
  frame       : Option PendingFrame
  waiting     : List Request
  deriving DecidableEq, Repr

/-- The states of a lot-table entry (R102), in the order of their codes. -/
inductive EntryState where
  | free | copy | asking | owned | ownedModified
  deriving DecidableEq, Repr

/-- The incoming lot of a castout entry with its own waiting list (R101, R116). -/
structure Incoming where
  lot     : Nat
  waiting : List Request
  deriving DecidableEq, Repr

/-- A lot-table entry (R101). `lastUse` and `lastDebit` are order numbers, 0 before the first use (R97; log entry 4). -/
structure LotEntry where
  lot          : Option Nat
  state        : EntryState
  handingOver  : Bool
  castout      : Bool
  figures      : Option Figures
  reclaimed    : Bool
  queue        : List Nat
  attempts     : Nat
  fetchTimer   : Timer
  publishTimer : Timer
  unreachable  : Option Nat
  frame        : Option PendingFrame
  lastUse      : Nat
  lastDebit    : Nat
  waiting      : List Request
  incoming     : Option Incoming
  deriving DecidableEq, Repr

/-- A FREE entry with no lot ID, every field cleared (R119). -/
def LotEntry.cleared : LotEntry :=
  ⟨none, .free, false, false, none, false, [], 0, none, none, none, none, 0, 0, [], none⟩

/-! ## Hall line controller -/

/-- The line states (R147), in the order of their codes. -/
inductive LineState where
  | off | listen | joining | active | faulted | duplicate
  deriving DecidableEq, Repr

/-- The record a pending frame belongs to (R121, R146). -/
inductive FrameOwner where
  | home (lot : Nat)
  | entry (number : Nat)
  | hello
  deriving DecidableEq, Repr

/-- The frame now being sent: the frame offered at its start, and its body once it has won the line (R149, R150). -/
structure Transmission where
  owner    : FrameOwner
  kind     : FrameKind
  queuedAt : Nat
  formed   : Option HallFrame
  deriving DecidableEq, Repr

/-- The attempt record: the frame last attempted, named by its record and queuing time, and its failures in a row
(R146, R154). -/
structure Attempt where
  owner    : FrameOwner
  queuedAt : Nat
  count    : Nat
  deriving DecidableEq, Repr

/-- A presence record (R161). -/
structure Presence where
  present : Bool
  absence : Timer
  deriving DecidableEq, Repr

/-- The hall line controller (R146). `hello` is the queuing time of a pending HELLO; the rest of the pending set is the
frames of the lot records. -/
structure LineController where
  state        : LineState
  hello        : Option Nat
  attempt      : Option Attempt
  faultTimer   : Timer
  beaconTimer  : Timer
  presence     : List Presence
  transmission : Option Transmission
  droveSlot    : Bool
  deriving DecidableEq, Repr

/-- The line controller after a full or power-on reset (R162). -/
def LineController.cleared : LineController :=
  ⟨.off, none, none, none, none, List.replicate Config.stationLimit ⟨false, none⟩, none, false⟩

/-! ## Responses of the terminal port -/

/-- The response codes, in the order of their values (R182). -/
inductive ResponseCode where
  | ok | full | notReady | busy | state | badArg
  deriving DecidableEq, Repr

/-- The outcome a slot view shows (R74, R182). -/
inductive ViewOutcome where
  | notDone | labelled | refused | applied | rejected
  deriving DecidableEq, Repr

/-- The slot view of PEEK (R74, R182). `kind` is 0 PARCEL, 1 SCREEN, absent when EMPTY. -/
structure SlotView where
  tag         : Tag
  kind        : Option Nat
  terminalTag : Nat
  pieceIndex  : Nat
  memberCount : Nat
  outcome     : ViewOutcome
  reason      : Option Reason
  deriving DecidableEq, Repr

/-- The body of STATUS (R178, R182). -/
structure StatusView where
  station        : StationState
  line           : LineState
  stationNumber  : Option Nat
  stationCount   : Option Nat
  clock          : Option Nat
  sequence       : Option Nat
  edition        : Nat
  fault          : Option LoadFault
  summary        : BitVec 16
  labelsIssued   : Nat
  recordsRefused : Nat
  framesRejected : Nat
  presence       : List Bool
  tags           : List Tag
  deriving DecidableEq, Repr

/-- What kind of record LOT VIEW found, with its state (R118). -/
inductive ViewSource where
  | nothing
  | home (s : HomeState)
  | entry (s : EntryState)
  | incoming
  deriving DecidableEq, Repr

/-- The lot view (R118, R182). -/
structure LotView where
  source      : ViewSource
  handingOver : Bool
  castout     : Bool
  reclaimed   : Bool
  unreachable : Bool
  figures     : Option Figures
  queueLength : Nat
  waiting     : Nat
  deriving DecidableEq, Repr

/-- A response body by the command that it answers (R182). -/
inductive ResponseBody where
  | nothing
  | failedCheck (check field : Nat)
  | slotIndex (n : Nat)
  | labels (ls : List LabelRecord)
  | screen (r : ScreenResult)
  | slot (v : SlotView)
  | status (v : StatusView)
  | summary (w : BitVec 16)
  | lot (v : LotView)
  deriving DecidableEq, Repr

/-- A response frame before its bytes are formed (R173, R182). -/
structure Response where
  code : ResponseCode
  body : ResponseBody
  deriving DecidableEq, Repr

/-! ## The whole station -/

/-- One CV-220. -/
structure State where
  pending       : List Instr
  held          : Bool
  response      : Option Response
  station       : StationState
  configuration : Option Configuration
  timebase      : Nat
  ordinal       : Nat
  clock         : Option StationClock
  ring          : Ring
  unit          : RatingUnit
  store         : TariffStore
  screen        : Option Screen
  home          : List HomeRecord
  table         : List LotEntry
  line          : LineController
  sequence      : Option Nat
  deriving DecidableEq, Repr

/-- The reasons a command stops the machine. The spec gives every command an effect or an answer in every state, so
there is none: no constructor, and no step faults. -/
inductive Fault where
  deriving DecidableEq, Repr

/-- The reasons a command is refused. -/
inductive Refusal where
  /-- Raised by an arm of `exec` whose command has no meaning yet; none is left. Safe: nothing is concluded of it. -/
  | notModelled (mnemonic : String)
  deriving DecidableEq, Repr

/-- The state of a station right after a power-on reset and the rise of RSTN: UNCONFIGURED, with every block at its
reset value (R43, R55, R80, R95, R119, R162, R171, R180, R181). -/
def State.reset : State where
  pending := []
  held := false
  response := none
  station := .unconfigured
  configuration := none
  timebase := 0
  ordinal := 1
  clock := none
  ring := Ring.cleared
  unit := ⟨0, 0, 0, 0⟩
  store := .empty
  screen := none
  home := []
  table := List.replicate Config.entryCount LotEntry.cleared
  line := LineController.cleared
  sequence := none

end Sys2Proof.Machine
end

