-- ==== Sys2Proof/Machine/Codes.lean ====
section
/-! DEFINITION. Byte order, the CRC-16, characters, and the numeric codes of the enumerations (12_formats.md). -/

namespace Sys2Proof.Machine

/-- The number that bytes spell, most significant byte first (12, Formats). -/
def ofBytes (bs : Bytes) : Nat := bs.foldl (fun a b => a * 256 + b.toNat) 0

/-- `n` in `w` bytes, most significant byte first. -/
def toBytes : Nat → Nat → Bytes
  | 0, _ => []
  | w + 1, n => BitVec.ofNat 8 (n / 256 ^ w) :: toBytes w n

/-- The number in the `len` bytes from offset `off` of a record. -/
def field (bs : Bytes) (off len : Nat) : Nat := ofBytes ((bs.drop off).take len)

/-- The 512 table bits of a screen record from its 64 bytes: bit i is bit (i mod 8) of byte (i div 8) (R182). -/
def tableOfBytes : Bytes → Nat
  | [] => 0
  | b :: bs => b.toNat + 256 * tableOfBytes bs

/-- The 64 bytes of a hash table, its low bits first (R182). -/
def tableBytes : Nat → Nat → Bytes
  | 0, _ => []
  | w + 1, n => BitVec.ofNat 8 n :: tableBytes w (n / 256)

/-- A Boolean as the byte 00H or 01H. -/
def boolByte (b : Bool) : Byte := if b then 1 else 0

/-! ## CRC-16 -/

/-- One bit of the CRC division by 1021H. -/
def crcShift (c : BitVec 16) : BitVec 16 := if c.msb then (c <<< 1) ^^^ 0x1021#16 else c <<< 1

/-- One byte, most significant bit first, into the CRC. -/
def crcByte (c : BitVec 16) (b : Byte) : BitVec 16 :=
  Nat.repeat crcShift 8 (c ^^^ (b.setWidth 16 <<< 8))

/-- CRC-16 with polynomial 1021H, initial value FFFFH and no final inversion (R30, R148). -/
def crc16 (bs : Bytes) : BitVec 16 := bs.foldl crcByte 0xFFFF#16

/-! ## Characters -/

/-- The filler of a character field without meaning, 20H. -/
def filler : Byte := 0x20

/-- A decimal digit, 30H to 39H. -/
def isDigit (c : Byte) : Bool := 0x30 ≤ c.toNat && c.toNat ≤ 0x39

/-- A capital letter, 41H to 5AH. -/
def isCapital (c : Byte) : Bool := 0x41 ≤ c.toNat && c.toNat ≤ 0x5A

/-- The value of a digit character. -/
def digitValue (c : Byte) : Nat := c.toNat - 0x30

/-- The number that digit characters spell. -/
def ofDigits (cs : Bytes) : Nat := cs.foldl (fun a c => a * 10 + digitValue c) 0

/-- `n` in `w` digit characters, with leading zeros. -/
def toDigits : Nat → Nat → Bytes
  | 0, _ => []
  | w + 1, n => BitVec.ofNat 8 (0x30 + n / 10 ^ w % 10) :: toDigits w n

/-! ## Codes (R182, R184, R186): numbered from 0 in the order of their chapters -/

def StationState.code : StationState → Nat
  | .unconfigured => 0 | .loading => 1 | .ready => 2 | .tariffFault => 3 | .leaving => 4 | .serving => 5

def LineState.code : LineState → Nat
  | .off => 0 | .listen => 1 | .joining => 2 | .active => 3 | .faulted => 4 | .duplicate => 5

def Tag.code : Tag → Nat
  | .empty => 0 | .queued => 1 | .grouped => 2 | .seeking => 3 | .complete => 4

def HomeState.code : HomeState → Nat
  | .atHome => 0 | .away => 1 | .unknown => 2 | .askingHome => 3 | .ended => 4

def EntryState.code : EntryState → Nat
  | .free => 0 | .copy => 1 | .asking => 2 | .owned => 3 | .ownedModified => 4

/-- Reason codes 1 to 10; NONE is 0. -/
def Reason.code : Reason → Nat
  | .invalid => 1 | .noService => 2 | .restricted => 3 | .overflow => 4 | .consignmentPeer => 5
  | .consignmentOrder => 6 | .consignmentIncomplete => 7 | .withdrawn => 8 | .noDispatch => 9 | .noNumber => 10

/-- Flag codes 0 to 15, the bits of every summary. -/
def Flag.code : Flag → Nat
  | .invalid => 0 | .noService => 1 | .restricted => 2 | .overflow => 3 | .inexact => 4 | .consignmentPeer => 5
  | .noDispatch => 6 | .noNumber => 7 | .consignmentOrder => 8 | .consignmentIncomplete => 9 | .withdrawn => 10
  | .tariffFault => 11 | .lineFault => 12 | .duplicate => 13 | .editionMismatch => 14 | .lotReclaimed => 15

def ResponseCode.code : ResponseCode → Nat
  | .ok => 0 | .full => 1 | .notReady => 2 | .busy => 3 | .state => 4 | .badArg => 5

def ViewOutcome.code : ViewOutcome → Nat
  | .notDone => 0 | .labelled => 1 | .refused => 2 | .applied => 3 | .rejected => 4

def Direction.code : Direction → Nat
  | .exactly => 0 | .up => 1 | .down => 2

def SectionKind.code : SectionKind → Nat
  | .zones => 1 | .ratesEconomy => 2 | .ratesStandard => 3 | .ratesPriority => 4 | .surcharges => 5
  | .discounts => 6 | .dispatchPlan => 7 | .screenDefault => 8

/-- The fault code byte (the order of the fault code table, NONE being 0) and its section kind byte. -/
def LoadFault.code : LoadFault → Nat × Nat
  | .flashSilent => (1, 0) | .badMarker => (2, 0) | .badHeader => (3, 0) | .edition => (4, 0) | .dayRange => (5, 0)
  | .missing k => (6, k.code) | .badCrc k => (7, k.code) | .inconsistent k => (8, k.code)

/-- Kind codes of hall line frames, lower winning (R120, R148). Kind 7 names no frame. -/
def FrameKind.code : FrameKind → Nat
  | .handover => 0 | .reclaim => 1 | .tally => 2 | .fetch => 3 | .stall => 4 | .notice => 5 | .hello => 6

/-- The kind code of a body. -/
def bodyKind : FrameBody → Nat
  | .handover _ => 0 | .reclaim _ _ => 1 | .tally _ _ => 2 | .fetch _ => 3 | .stall _ => 4 | .notice _ _ => 5
  | .hello _ _ => 6 | .unknown _ => 7

/-- The service that a code names (R182); none for an unknown code. -/
def serviceRow (t : Tariff) (code : Nat) : Option RateSection :=
  match code with
  | 0 => some t.economy
  | 1 => some t.standard
  | 2 => some t.priority
  | _ => none

/-- Whether a departure's mask admits the service of a code (R39, R105). -/
def ServiceMask.admits (m : ServiceMask) (code : Nat) : Bool :=
  match code with
  | 0 => m.economy
  | 1 => m.standard
  | 2 => m.priority
  | _ => false

end Sys2Proof.Machine
end

