-- ==== Sys2Proof/Machine/Flags.lean ====
section
/-! DEFINITION. The exception summary and the three counters (05_exceptions_and_outcomes.md, R81, R92 to R94). -/

namespace Sys2Proof.Machine

/-- Setting a flag; one already set stays set (R81). -/
def setFlag (w : BitVec 16) (f : Flag) : BitVec 16 := w ||| BitVec.twoPow 16 f.code

/-- Whether a flag is set. -/
def flagSet (w : BitVec 16) (f : Flag) : Bool := w.getLsbD f.code

/-- Clearing the flags of the codes named (R93); a code named twice clears its flag once (R183). -/
def clearCodes (w : BitVec 16) (codes : List Nat) : BitVec 16 :=
  codes.foldl (fun w c => w &&& ~~~(BitVec.twoPow 16 c)) w

/-- A counter's event: up by one, staying at 65,535 (R94). -/
def countUp (n : Nat) : Nat := min (n + 1) Config.counterTop

/-- Raising an exception or station condition: its flag in the summary (R81, R92). -/
def State.raise (s : State) (f : Flag) : State := { s with unit.summary := setFlag s.unit.summary f }

/-- Raising the exceptions of one rating event. -/
def State.raiseAll (s : State) (fs : List Flag) : State := fs.foldl State.raise s

/-- One parcel record completed DONE LABELLED (R94). -/
def State.countLabel (s : State) : State := { s with unit.labelsIssued := countUp s.unit.labelsIssued }

/-- One record completed DONE REFUSED (R94). -/
def State.countRefusal (s : State) : State := { s with unit.recordsRefused := countUp s.unit.recordsRefused }

/-- One frame seen rejected in its acceptance slot (R94, R153). -/
def State.countRejected (s : State) : State := { s with unit.framesRejected := countUp s.unit.framesRejected }

end Sys2Proof.Machine
end

