-- ==== Sys2Proof/Machine/Screening.lean ====
section
/-! DEFINITION. Destination screening: classification and the check of a screen record (03_destination_screening.md). -/

namespace Sys2Proof.Machine

/-- The empty exact list with the inverse flag clear, which classifies every destination as clear (R33, R45). -/
def Screen.openScreen : Screen := .places false []

/-- An entry matches when its digits equal the destination's first three or six characters (R45). -/
def Place.hits (e : Place) (destination : Bytes) : Bool := destination.take e.length == e.digits

/-- The hash index (p × 41 + s) modulo 512 (R47). -/
def hashIndex (destination : Bytes) : Nat :=
  (ofDigits (destination.take 3) * 41 + ofDigits ((destination.drop 3).take 3)) % 512

/-- Whether a screen classifies a destination as restricted (R45, R46, R47). -/
def Screen.restricts (sc : Screen) (destination : Bytes) : Bool :=
  match sc with
  | .places inverse entries => (entries.any (·.hits destination)) != inverse
  | .hashed table => table.getLsbD (hashIndex destination)

/-- Checks 3 and 4 of R51 on one entry. -/
def checkEntry (i : Nat) (e : ScreenEntry) : Except RejectReason Place :=
  if e.length ≠ 3 ∧ e.length ≠ 6 then .error (.badLength i)
  else if (e.characters.take e.length).all isDigit then .ok ⟨e.length, e.characters.take e.length⟩
  else .error (.badDigit i)

/-- Entry by entry from entry `i`, ending at the first that fails (R51). -/
def checkEntries (i : Nat) : List ScreenEntry → Except RejectReason (List Place)
  | [] => .ok []
  | e :: es =>
    match checkEntry i e with
    | .error r => .error r
    | .ok p =>
      match checkEntries (i + 1) es with
      | .error r => .error r
      | .ok ps => .ok (p :: ps)

/-- The checks of R51 in order, and the screen that a record passing them gives (R52). Any non-zero inverse flag is set
(R183). -/
def checkScreen (b : ScreenBody) : Except RejectReason Screen :=
  match b.kind with
  | 0 =>
    if b.count < 1 ∨ 16 < b.count then .error .badCount
    else
      match checkEntries 0 (b.entries.take b.count) with
      | .error r => .error r
      | .ok ps => .ok (.places (b.inverse != 0) ps)
  | 1 => .ok (.hashed b.hashTable)
  | _ => .error .badKind

/-- A screen body's fields from its 179 bytes (R182, R184). -/
def readEntries : Nat → Bytes → List ScreenEntry
  | 0, _ => []
  | n + 1, bs => ⟨field bs 0 1, (bs.drop 1).take 6⟩ :: readEntries n (bs.drop 7)

def readScreenBody (bs : Bytes) : ScreenBody where
  kind := field bs 0 1
  inverse := field bs 1 1
  count := field bs 2 1
  entries := readEntries 16 (bs.drop 3)
  hashTable := BitVec.ofNat 512 (tableOfBytes ((bs.drop 115).take 64))

end Sys2Proof.Machine
end

