-- ==== Sys2Proof/Machine/Rating.lean ====
section
/-! DEFINITION. The rating unit: checks, stages A to J, rounding, consignments (01_rating_arithmetic.md). -/

namespace Sys2Proof.Machine

/-! ## Rounding -/

/-- Division rounded upwards: a ceiling of the tariff's definitions (R6, R8, R9, R11). -/
def ceilDiv (n q : Nat) : Nat := (n + (q - 1)) / q

/-- Whether a mode rounding takes q + 1 (R6). -/
def roundsUp (m : RoundingMode) (n q : Nat) : Bool :=
  match m with
  | .halfUp => q ≤ 2 * (n % q)
  | .halfEven => q < 2 * (n % q) || (2 * (n % q) == q && n / q % 2 == 1)
  | .up => 0 < n % q
  | .down => false

/-- The mode rounding of numerator `n` by divisor `q` (R6). -/
def roundBy (m : RoundingMode) (n q : Nat) : Nat := if roundsUp m n q then n / q + 1 else n / q

/-- A rounding with a remainder above 0 is inexact (R7). -/
def dropsRemainder (n q : Nat) : Bool := n % q != 0

/-- The rounding-direction field (R7). -/
def roundDirection (m : RoundingMode) (n q : Nat) : Direction :=
  if n % q = 0 then .exactly else if roundsUp m n q then .up else .down

/-! ## Checks -/

/-- The longest side. -/
def longestSide (p : ParcelRecord) : Nat := max p.length (max p.width p.height)

/-- G = S1 + 2 × (S2 + S3) (R3). -/
def girth (p : ParcelRecord) : Nat :=
  longestSide p + 2 * (p.length + p.width + p.height - longestSide p)

/-- The five validity checks of R3; every failure is the same refusal. -/
def validParcel (t : Tariff) (p : ParcelRecord) : Bool :=
  (1 ≤ p.weight && p.weight ≤ 70000) &&
  (1 ≤ p.length && p.length ≤ 2000) && (1 ≤ p.width && p.width ≤ 2000) && (1 ≤ p.height && p.height ≤ 2000) &&
  p.declaredValue ≤ 5000000 && p.pieceMark ≤ 3 &&
  girth p ≤ 4000 &&
  (p.destination.length == 6 && p.destination.all isDigit) &&
  (match serviceRow t p.service with
   | none => false
   | some r => p.declaredValue == 0 || r.insuranceAllowed)

/-- The first three digits as a number (R4). -/
def destinationPrefix (p : ParcelRecord) : Nat := ofDigits (p.destination.take 3)

/-- The zone-table entry of a destination (R4). The table has an entry for every prefix (R34). -/
def zoneEntry (t : Tariff) (p : ParcelRecord) : ZoneEntry :=
  (t.zones[destinationPrefix p]?).getD ⟨none, 0, false⟩

/-! ## Stages A to C -/

/-- Stage A: whole centimetres and the volume (R8). -/
def volume (p : ParcelRecord) : Nat := ceilDiv p.length 10 * ceilDiv p.width 10 * ceilDiv p.height 10

/-- The litres a piece takes from a lot (R2). -/
def litres (p : ParcelRecord) : Nat := ceilDiv (volume p) 1000

/-- Stage B: the chargeable weight (R9). -/
def chargeableWeight (r : RateSection) (p : ParcelRecord) : Nat :=
  if r.divisor = 0 then p.weight else max p.weight (ceilDiv (volume p * 1000) r.divisor)

/-- The first band whose bound is at least the weight (R10). -/
def bandOf (r : RateSection) (w : Nat) : Option Band := r.bands.find? (fun b => w ≤ b.bound)

/-- Stage C: the base charge in cents (R10, R11). -/
def baseCharge (r : RateSection) (zone w : Nat) : Nat :=
  match bandOf r w with
  | some b => b.charges.getD zone 0
  | none =>
    match r.bands.getLast? with
    | some top => top.charges.getD zone 0 + ceilDiv (w - top.bound) r.excessStep * r.increments.getD zone 0
    | none => 0

/-! ## Stages D to J -/

/-- An amount above the money limit (R17). -/
def overLimit (v : Nat) : Bool := Config.moneyLimit < v

/-- A checked value as later stages use it: the limit in its place when it fails (R19). -/
def saturate (v : Nat) : Nat := min v Config.moneyLimit

/-- Oversize by the longest side or the girth (R13). -/
def oversize (p : ParcelRecord) : Bool := 1200 < longestSide p || 3000 < girth p

/-- Stage E: the fixed surcharges in sub-cents (R14). The options byte has Signature, Saturday and Fragile in bits 0 to 2
(R182); its other bits are not read (R183). -/
def fixedSurcharges (r : RateSection) (p : ParcelRecord) (remote restricted : Bool) : Nat :=
  ((if oversize p then r.surcharges.oversize else 0) + (if remote then r.surcharges.remote else 0) +
    (if p.options.getLsbD 0 then r.surcharges.signature else 0) +
    (if p.options.getLsbD 1 then r.surcharges.saturday else 0) +
    (if p.options.getLsbD 2 then r.surcharges.fragile else 0) +
    (if restricted then r.surcharges.restricted else 0)) * 100

/-- Every value of stages C to J, each checked value saturated, with the checks that failed and the roundings that
dropped a remainder. Before the first failing check no value is changed by saturation. -/
structure Workings where
  base         : Nat
  fuel         : Nat
  fixed        : Nat
  premium      : Nat
  subtotal     : Nat
  discount     : Nat
  tax          : Nat
  total        : Nat
  overBase     : Bool
  overFuel     : Bool
  overFixed    : Bool
  overPremium  : Bool
  overSubtotal : Bool
  overTotal    : Bool
  inexactFuel     : Bool
  inexactPremium  : Bool
  inexactDiscount : Bool
  inexactTax      : Bool
  deriving DecidableEq, Repr

/-- The base in cents that stage D reads: 9,999,999 when the base fails (R19). -/
def fuelBase (b : Nat) : Nat := if overLimit (b * 100) then Config.clampedCents else b

/-- Stage F's numerator (R15); 0 when the declared value is at or below the threshold. -/
def premiumNumerator (r : RateSection) (p : ParcelRecord) : Nat := (p.declaredValue - r.freeThreshold) * r.insuranceRate

/-- Stage F: the premium, raised to the minimum above the threshold (R15). -/
def premium (m : RoundingMode) (r : RateSection) (p : ParcelRecord) : Nat :=
  if p.declaredValue ≤ r.freeThreshold then 0
  else max (roundBy m (premiumNumerator r p) 100) (r.minimumPremium * 100)

/-- The discount rate of a consignment of n pieces, d(2) to d(8); none for a parcel alone (R20, R37). -/
def discountRate (t : Tariff) (n : Option Nat) : Nat :=
  match n with
  | none => 0
  | some n => t.discounts.getD (n - 2) 0

/-- Stages C to I and the sum of stage J (R10 to R22). -/
def workings (t : Tariff) (r : RateSection) (zone : Nat) (remote restricted : Bool) (n : Option Nat)
    (p : ParcelRecord) : Workings :=
  let b := baseCharge r zone (chargeableWeight r p)
  let fuelN := fuelBase b * r.fuel
  let fuel := roundBy t.mode fuelN 100
  let fixed := fixedSurcharges r p remote restricted
  let prem := premium t.mode r p
  let sum := saturate (b * 100) + saturate fuel + saturate fixed + saturate prem
  let discN := saturate sum * discountRate t n
  let disc := roundBy t.mode discN 10000
  let net := saturate sum - disc
  let taxN := net * r.tax
  let tax := roundBy t.mode taxN 10000
  { base := saturate (b * 100), fuel := saturate fuel, fixed := saturate fixed, premium := saturate prem
    subtotal := saturate sum, discount := disc, tax := tax, total := net + tax
    overBase := overLimit (b * 100), overFuel := overLimit fuel, overFixed := overLimit fixed
    overPremium := overLimit prem, overSubtotal := overLimit sum, overTotal := overLimit (net + tax)
    inexactFuel := dropsRemainder fuelN 100
    inexactPremium := r.freeThreshold < p.declaredValue && dropsRemainder (premiumNumerator r p) 100
    inexactDiscount := dropsRemainder discN 10000
    inexactTax := dropsRemainder taxN 10000 }

/-- Whether any check of R17 failed. -/
def Workings.overflows (w : Workings) : Bool :=
  w.overBase || w.overFuel || w.overFixed || w.overPremium || w.overSubtotal || w.overTotal

/-- The inexact roundings made up to the first failing check, the failing stage's own included; stage J checks T before
its rounding (R18, R22; log entry 23). -/
def Workings.inexactBeforeFailure (w : Workings) : Bool :=
  if w.overBase then false
  else if w.overFuel || w.overFixed then w.inexactFuel
  else if w.overPremium || w.overSubtotal then w.inexactFuel || w.inexactPremium
  else w.inexactFuel || w.inexactPremium || w.inexactDiscount || w.inexactTax

/-- The inexact roundings of stages D to I. -/
def Workings.inexact (w : Workings) : Bool :=
  w.inexactFuel || w.inexactPremium || w.inexactDiscount || w.inexactTax

/-! ## The rating of one record -/

/-- A result with every field at 0, refused for a reason. -/
def RatingResult.refused (why : Reason) : RatingResult :=
  ⟨some why, some 0, 0, false, 0, 0, 0, 0, 0, 0, 0, 0, 0, 0, 0, .exactly, false, false, false⟩

/-- The masks a rating reads (R1, R83). -/
structure RatingMasks where
  restricted : Bool
  overflow   : Bool
  deriving DecidableEq, Repr

/-- The result of stages A to J for a valid, screened record (R8 to R22). The components and total of a record refused
Overflow, those of the stages already computed included, are 0 (R18; log entry 36). -/
def rateStages (t : Tariff) (masks : RatingMasks) (r : RateSection) (z : ZoneEntry) (zone : Nat) (restricted : Bool)
    (n : Option Nat) (p : ParcelRecord) : RatingResult :=
  let w := workings t r zone z.remote restricted n p
  let found : RatingResult :=
    { RatingResult.refused .overflow with
      zone := some zone, route := z.route, remote := z.remote, volume := volume p, litres := litres p
      chargeableWeight := chargeableWeight r p, inspect := restricted }
  if w.overflows then
    if masks.overflow then
      { found with
        refusal := none, base := w.base, fuel := w.fuel, fixed := w.fixed, insurance := w.premium
        discount := w.discount, tax := w.tax, total := Config.moneyLimit, charge := Config.clampedCents
        direction := .exactly, inexact := w.inexact, clamped := true }
    else { found with inexact := w.inexactBeforeFailure }
  else
    { found with
      refusal := none, base := w.base, fuel := w.fuel, fixed := w.fixed, insurance := w.premium
      discount := w.discount, tax := w.tax, total := w.total, charge := roundBy t.mode w.total 100
      direction := roundDirection t.mode w.total 100, inexact := w.inexact || dropsRemainder w.total 100 }

/-- The flags that the stages raise: Overflow, masked or not, and Inexact (R7, R17). -/
def stageFlags (t : Tariff) (r : RateSection) (z : ZoneEntry) (zone : Nat) (restricted : Bool) (n : Option Nat)
    (p : ParcelRecord) (result : RatingResult) : List Flag :=
  (if (workings t r zone z.remote restricted n p).overflows then [.overflow] else []) ++
    (if result.inexact then [.inexact] else [])

/-- The rating of one record, its checks in the order of R82: validity, zone, screen, stages. Gives the result and the
exceptions raised, masked or not. -/
def rateRecord (t : Tariff) (sc : Screen) (masks : RatingMasks) (n : Option Nat) (p : ParcelRecord) :
    RatingResult × List Flag :=
  if !validParcel t p then (RatingResult.refused .invalid, [.invalid])
  else
    let z := zoneEntry t p
    match z.zone, serviceRow t p.service with
    | some zone, some r =>
      let restricted := sc.restricts p.destination
      if restricted && !masks.restricted then
        ({ RatingResult.refused .restricted with zone := some zone, route := z.route, remote := z.remote },
          [.restricted])
      else
        let result := rateStages t masks r z zone restricted n p
        (result, (if restricted then [.restricted] else []) ++ stageFlags t r z zone restricted n p result)
    | _, _ => ({ RatingResult.refused .noService with zone := none }, [.noService])

/-! ## Consignments -/

/-- A rated piece's result: kept while every later piece is rated, else refused ConsignmentPeer, its other fields as they
were (R2, R25; log entry 22). -/
def RatingResult.asPeer (r : RatingResult) (whole : Bool) : RatingResult :=
  if whole then r else { r with refusal := some .consignmentPeer }

/-- Rating of a consignment's pieces in ring order, ending at the first that is refused (R23, R25). A piece rated before
it is refused ConsignmentPeer; a piece not reached has no result. -/
def ratePieces (t : Tariff) (sc : Screen) (masks : RatingMasks) (n : Nat) :
    List ParcelRecord → List (Option RatingResult) × List Flag × Bool
  | [] => ([], [], true)
  | p :: ps =>
    match rateRecord t sc masks (some n) p with
    | (result, flags) =>
      if result.refusal.isSome then (some result :: ps.map (fun _ => none), flags, false)
      else
        match ratePieces t sc masks n ps with
        | (results, more, whole) => (some (result.asPeer whole) :: results, flags ++ more, whole)

/-- Each piece's reason when a consignment is refused at rating: the offender its own, the others ConsignmentPeer
(R25). A result that stands has its reason in it. -/
def peerReason (result : Option RatingResult) : Reason :=
  match result with
  | some r => r.refusal.getD .consignmentPeer
  | none => .consignmentPeer

end Sys2Proof.Machine
end

