-- ==== Sys2Proof/Machine/Labels.lean ====
section
/-! DEFINITION. The label unit: tracking numbers, the sequence counter, label records
(09_tracking_numbers_and_label_records.md; 05, R90, R91). -/

namespace Sys2Proof.Machine

/-! ## Tracking numbers -/

/-- The weights 7, 3, 1 over the ten digits, from the left (R164). -/
def checkWeights : List Nat := [7, 3, 1, 7, 3, 1, 7, 3, 1, 7]

/-- The weighted sum of digit characters (R164). -/
def checkSum (digits : Bytes) : Nat := ((digits.zip checkWeights).map (fun d => digitValue d.1 * d.2)).sum

/-- 10 minus the sum modulo 10, modulo 10 again (R164). -/
def checkDigit (digits : Bytes) : Nat := (10 - checkSum digits % 10) % 10

/-- Characters 3 to 12: day number, station number and sequence (R163). -/
def numberDigits (c : Configuration) (seq : Nat) : Bytes :=
  toDigits 3 c.day ++ toDigits 2 c.stationNumber ++ toDigits 5 seq

/-- The 13 characters of the tracking number of a sequence (R163). -/
def trackingNumber (c : Configuration) (seq : Nat) : Bytes :=
  c.networkPrefix ++ numberDigits c seq ++ toDigits 1 (checkDigit (numberDigits c seq))

/-- A tracking or consignment number without meaning (R91, R168). -/
def noNumberText : Bytes := List.replicate 13 filler

/-- LB can cover n numbers when the counter plus n − 1 is at or below 99,999 (R166). -/
def State.canCover (s : State) (n : Nat) : Bool :=
  match s.sequence with
  | some c => c + n ≤ Config.exhausted
  | none => false

/-- The counter rises by n (R166). -/
def State.advanceSequence (s : State) (n : Nat) : State := { s with sequence := s.sequence.map (· + n) }

/-! ## Label records -/

/-- How a parcel completes: labelled with a number, or refused (R72). -/
inductive Completion where
  | labelled (tracking consignment : Bytes)
  | refused (why : Reason)
  deriving DecidableEq, Repr

/-- The reason in a label record; none is NONE. -/
def Completion.reason : Completion → Option Reason
  | .labelled _ _ => none
  | .refused why => some why

/-- The columns of R91 for a refusal reason (none: LABELLED): whether charge, components and total have meaning. -/
def chargeHasMeaning : Option Reason → Bool
  | none | some .noDispatch | some .noNumber => true
  | _ => false

/-- R91, the chargeable weight column. -/
def weightHasMeaning : Option Reason → Bool
  | none | some .noDispatch | some .noNumber | some .overflow => true
  | _ => false

/-- R91, the zone column: with NoService the zone NONE has meaning. -/
def zoneHasMeaning : Option Reason → Bool
  | none | some .noDispatch | some .noNumber | some .overflow | some .restricted | some .noService => true
  | _ => false

/-- R91, the route column. -/
def routeHasMeaning : Option Reason → Bool
  | none | some .noDispatch | some .noNumber | some .overflow | some .restricted => true
  | _ => false

/-- R91, the Inexact column. -/
def inexactHasMeaning : Option Reason → Bool
  | none | some .noDispatch | some .noNumber | some .overflow | some .consignmentPeer | some .withdrawn => true
  | _ => false

/-- A field as LB writes it: 0 where it has no meaning (R91). -/
def meant (has : Bool) (n : Nat) : Nat := if has then n else 0

/-- The error-summary mark from the reason and the warning marks as written: bit r − 1 for reason code r, bits 10 to 13
for Inspect, Clamped, Dispatch pending and Reclaimed lot (R90, R182). -/
def errorSummary (why : Option Reason) (inspect clamped dispatchPending reclaimedLot : Bool) : BitVec 16 :=
  (match why with
   | some r => BitVec.twoPow 16 (r.code - 1)
   | none => 0) |||
  (if inspect then BitVec.twoPow 16 10 else 0) ||| (if clamped then BitVec.twoPow 16 11 else 0) |||
  (if dispatchPending then BitVec.twoPow 16 12 else 0) ||| (if reclaimedLot then BitVec.twoPow 16 13 else 0)

/-- The rating result of a record never rated: every field 0, Inexact clear (R91). -/
def unrated : RatingResult := RatingResult.refused .invalid

/-- Dispatch fields with no lot (R109). -/
def DispatchFields.routeOnly (route : Nat) (dispatchPending : Bool) : DispatchFields :=
  ⟨route, 0, 0, 0, dispatchPending, false⟩

/-- The label record formed at the completion of a parcel, from what the slot holds at that event (R169, R170), each
field by the validity table of R91. -/
def formLabel (p : ParcelRecord) (link : Option Link) (rating : Option RatingResult) (dispatch : Option DispatchFields)
    (c : Completion) : LabelRecord :=
  let why := c.reason
  let r := rating.getD unrated
  let d := dispatch.getD (DispatchFields.routeOnly 0 false)
  let labelled := why.isNone
  let clamped := labelled && r.clamped
  let inspect := labelled && r.inspect
  let charge := chargeHasMeaning why
  let lot := labelled && !d.dispatchPending
  { terminalTag := p.terminalTag
    refusal := why
    errorSummary := errorSummary why inspect clamped (labelled && d.dispatchPending) (labelled && d.reclaimedLot)
    trackingNumber := match c with | .labelled t _ => t | .refused _ => noNumberText
    consignmentNumber := match c with | .labelled _ t => t | .refused _ => noNumberText
    pieceIndex := match link with | some l => l.piece | none => 0
    charge := meant charge r.charge
    base := meant charge r.base
    fuel := meant charge r.fuel
    fixed := meant charge r.fixed
    insurance := meant charge r.insurance
    discount := meant charge r.discount
    tax := meant charge r.tax
    chargeableWeight := meant (weightHasMeaning why) r.chargeableWeight
    zone := if zoneHasMeaning why then r.zone else some 0
    route := meant (routeHasMeaning why) r.route
    departure := meant lot d.departure
    cutOff := meant lot d.cutOff
    lot := meant lot d.lot
    direction := if labelled then r.direction else .exactly
    inexact := inexactHasMeaning why && r.inexact
    clamped := clamped
    inspect := inspect
    dispatchPending := labelled && d.dispatchPending
    reclaimedLot := labelled && d.reclaimedLot }

end Sys2Proof.Machine
end

