-- ==== Sys2Proof/Machine/Ops.lean ====
section
/-! DEFINITION. The named operations over the state: lookups, slots and their completion, home records, lot-table
entries, pending frames, ATTN. Every update of State by the commands goes through these. -/

namespace Sys2Proof

/-! ## Figures -/

/-- Each of the three figures at or below the record's (R110). -/
def Figures.fits (q f : Figures) : Bool := q.weight ≤ f.weight && q.litres ≤ f.litres && q.pieces ≤ f.pieces

/-- The three figures lowered together (R103, R110). -/
def Figures.lessen (f q : Figures) : Figures := ⟨f.weight - q.weight, f.litres - q.litres, f.pieces - q.pieces⟩

/-- Zeros in weight, litres and pieces. -/
def Figures.zero : Figures := ⟨0, 0, 0⟩

/-- A figure above the plan capacity is taken as that capacity (R187). -/
def Figures.upTo (f cap : Figures) : Figures :=
  ⟨min f.weight cap.weight, min f.litres cap.litres, min f.pieces cap.pieces⟩

/-- Figures added up (R23, R104). -/
def Figures.plus (a b : Figures) : Figures := ⟨a.weight + b.weight, a.litres + b.litres, a.pieces + b.pieces⟩

end Sys2Proof

namespace Sys2Proof.Machine

/-! ## Lookups -/

/-- Read where no configuration is stored; no rule reads it there. -/
def Configuration.blank : Configuration := ⟨1, 0, 1, 0, 0, [], 0, false, 400, 4, 180, true, true, true⟩

/-- The configuration in force (R177). -/
def State.config (s : State) : Configuration := s.configuration.getD Configuration.blank

/-- This station's number. -/
def State.own (s : State) : Nat := s.config.stationNumber

/-- The tariff of a LOADED store (R27). -/
def State.tariff (s : State) : Option Tariff :=
  match s.store with
  | .loaded t => some t
  | _ => none

/-- The edition reported and sent: 0 unless the store is LOADED (R178, R159). -/
def State.edition (s : State) : Nat :=
  match s.tariff with
  | some t => t.edition
  | none => 0

/-- The minute of the station clock (R96). -/
def State.minute (s : State) : Nat :=
  match s.clock with
  | some c => c.minute
  | none => 0

/-- Lot ID is route × 8 + departure index (R39). -/
def Departure.lot (d : Departure) : Nat := d.route * 8 + d.index

/-- The departure of the loaded plan that a lot ID names (R39, R118, R187). -/
def State.planLot (s : State) (lot : Nat) : Option Departure :=
  match s.tariff with
  | some t => t.plan.find? (fun d => d.lot == lot)
  | none => none

/-- The clock is at or after the lot's cut-off; a lot of no plan takes nothing (R106, R110, R113). -/
def State.pastCutOff (s : State) (lot : Nat) : Bool :=
  match s.planLot lot with
  | some d => d.cutOff ≤ s.minute
  | none => true

/-- The lot's home after the substitution of R40. -/
def State.homeOf (s : State) (lot : Nat) : Nat :=
  match s.planLot lot with
  | some d => d.home
  | none => 0

/-- Whether a station is present in the presence set (R161). -/
def State.isPresent (s : State) (station : Nat) : Bool :=
  match s.line.presence[station]? with
  | some p => p.present
  | none => false

/-- The station takes part in the lot protocol (R122). -/
def State.inService (s : State) : Bool :=
  s.station == .ready || s.station == .leaving || s.station == .serving

/-! ## Slots -/

/-- The slot of an index (R56). -/
def State.slot (s : State) (i : Nat) : Slot := s.ring.slots.getD i Slot.vacant

/-- One slot changed. -/
def State.updateSlot (s : State) (i : Nat) (f : Slot → Slot) : State :=
  { s with ring.slots := s.ring.slots.modify i f }

/-- A slot the engine still owns: QUEUED, GROUPED or SEEKING (R58). -/
def Slot.engineOwns (x : Slot) : Bool := x.tag == .queued || x.tag == .grouped || x.tag == .seeking

/-- A parcel's slot with its label record formed, DONE (R169). -/
def Slot.completed (x : Slot) (p : ParcelRecord) (dispatch : Option DispatchFields) (c : Completion) : Slot :=
  { x with tag := .complete, dispatch := dispatch, label := some (formLabel p x.link x.rating dispatch c) }

/-- A parcel completes DONE: its label record is formed and its counter rises at the same event (R72, R94, R169). A slot
that the engine does not own is left as it is (R72). -/
def State.completeParcel (s : State) (i : Nat) (dispatch : Option DispatchFields) (c : Completion) : State :=
  match (s.slot i).engineOwns, (s.slot i).record with
  | true, some (.parcel p) =>
    let s' := s.updateSlot i (fun x => x.completed p dispatch c)
    match c with
    | .labelled _ _ => s'.countLabel
    | .refused _ => s'.countRefusal
  | _, _ => s

/-- A screen record completes DONE with its screen result (R50, R52, R53, R54); only a withdrawn one counts as refused
(R94). -/
def State.completeScreen (s : State) (i : Nat) (outcome : ScreenOutcome) : State :=
  match (s.slot i).engineOwns, (s.slot i).record with
  | true, some (.screen r) =>
    let s' := s.updateSlot i (fun x => { x with tag := .complete, screenResult := some ⟨r.terminalTag, outcome⟩ })
    if outcome = .withdrawn then s'.countRefusal else s'
  | _, _ => s

/-- Every member refused with one reason (R88). -/
def State.refuseMembers (s : State) (members : List Nat) (dispatch : Option DispatchFields) (why : Reason) : State :=
  members.foldl (fun s i => s.completeParcel i dispatch (.refused why)) s

/-- A completion of the lot stage reaches a SEEKING slot alone (R72; log entry 27). -/
def State.completeSeeking (s : State) (i : Nat) (dispatch : Option DispatchFields) (c : Completion) : State :=
  if (s.slot i).tag = .seeking then s.completeParcel i dispatch c else s

/-- Every SEEKING member refused with one reason (R72, R77, R88). -/
def State.refuseSeeking (s : State) (members : List Nat) (dispatch : Option DispatchFields) (why : Reason) : State :=
  members.foldl (fun s i => s.completeSeeking i dispatch (.refused why)) s

/-- SEEKING members labelled in ring order with the sequences from `seq` upwards; `consignment` is every piece's
consignment number (R166, R168). -/
def State.labelMembers (s : State) (dispatch : DispatchFields) (consignment : Bytes) :
    (seq : Nat) → List Nat → State
  | _, [] => s
  | seq, i :: is =>
    (s.completeSeeking i (some dispatch) (.labelled (trackingNumber s.config seq) consignment)).labelMembers
      dispatch consignment (seq + 1) is

/-! ## Records of lots -/

/-- The home record of a lot (R98). -/
def State.findHome (s : State) (lot : Nat) : Option HomeRecord := s.home.find? (fun r => r.lot == lot)

/-- One home record changed. -/
def State.updateHome (s : State) (lot : Nat) (f : HomeRecord → HomeRecord) : State :=
  { s with home := s.home.map (fun r => if r.lot = lot then f r else r) }

/-- The entry of a number (R101). -/
def State.entry (s : State) (i : Nat) : LotEntry := s.table.getD i LotEntry.cleared

/-- One entry changed. -/
def State.updateEntry (s : State) (i : Nat) (f : LotEntry → LotEntry) : State :=
  { s with table := s.table.modify i f }

/-- The number of the entry whose lot ID is the lot (R102). -/
def State.entryOf (s : State) (lot : Nat) : Option Nat := s.table.findIdx? (fun e => e.lot == some lot)

/-- The number of the entry that holds the lot as its incoming lot (R102). -/
def State.incomingOf (s : State) (lot : Nat) : Option Nat :=
  s.table.findIdx? (fun e => e.incoming.any (fun c => c.lot == lot))

/-- A home record holds its lot as owner in AT_HOME alone (R99). -/
def HomeRecord.holds (r : HomeRecord) : Bool := r.state == .atHome

/-- An entry holds its lot as owner in OWNED and OWNED-MODIFIED, handing over or not (R102). -/
def LotEntry.holds (e : LotEntry) : Bool := e.state == .owned || e.state == .ownedModified

/-- The entry's unreachable time is in the future (R97, R107). -/
def State.unreachableNow (s : State) (e : LotEntry) : Bool :=
  match e.unreachable with
  | some u => s.timebase < u
  | none => false

/-- The next order number: queuing times, last uses and last debits are ordered by it (R97, R157; log entry 4). -/
def State.nextOrdinal (s : State) : State := { s with ordinal := s.ordinal + 1 }

/-- The entry is used at this event (R97, R107). -/
def State.useEntry (s : State) (i : Nat) : State :=
  (s.updateEntry i (fun e => { e with lastUse := s.ordinal })).nextOrdinal

/-! ## Pending frames -/

/-- Which pending frame a newly queued one replaces (R121). -/
def FrameKind.yieldsTo (old new : FrameKind) : Bool :=
  match old, new with
  | .notice, .handover | .notice, .tally | .stall, .fetch => true
  | _, _ => false

/-- Whether a frame of the kind can be queued for a record with this pending frame (R121). -/
def queueable (old : Option PendingFrame) (new : FrameKind) : Bool :=
  match old with
  | none => true
  | some f => f.kind.yieldsTo new

/-- The pending frame after a queuing: the new one, or the one that it does not replace (R121). -/
def queueFrame (old : Option PendingFrame) (new : PendingFrame) : Option PendingFrame :=
  if queueable old new.kind then some new else old

/-- A frame queued for a home record. A HANDOVER sets handing over (R125). -/
def HomeRecord.queued (r : HomeRecord) (f : PendingFrame) : HomeRecord :=
  { r with
    frame := queueFrame r.frame f
    handingOver := r.handingOver || (queueable r.frame f.kind && f.kind == .handover) }

/-- A frame queued for an entry. A HANDOVER sets handing over, and a HANDOVER or TALLY stops the publish timer (R113,
R125, R138). -/
def LotEntry.queued (e : LotEntry) (f : PendingFrame) : LotEntry :=
  { e with
    frame := queueFrame e.frame f
    handingOver := e.handingOver || (queueable e.frame f.kind && f.kind == .handover)
    publishTimer :=
      if queueable e.frame f.kind && (f.kind == .handover || f.kind == .tally) then none else e.publishTimer }

/-- A frame queued for a lot's record at this event; `recipient` is read in a HANDOVER alone. -/
def State.queue (s : State) (ref : RecordRef) (kind : FrameKind) (recipient : Nat) : State :=
  (match ref with
   | .home lot => s.updateHome lot (fun r => r.queued ⟨kind, recipient, s.ordinal⟩)
   | .entry i => s.updateEntry i (fun e => e.queued ⟨kind, recipient, s.ordinal⟩)).nextOrdinal

/-- A HELLO queued unless one is already pending (R158, R159). -/
def State.queueHello (s : State) : State :=
  match s.line.hello with
  | some _ => s
  | none => ({ s with line.hello := some s.ordinal }).nextOrdinal

/-- The pending frame of a record (R121, R146). -/
def State.pendingFrame (s : State) (o : FrameOwner) : Option PendingFrame :=
  match o with
  | .home lot => (s.findHome lot).bind (·.frame)
  | .entry i => (s.entry i).frame
  | .hello => s.line.hello.map (fun q => ⟨.hello, 0, q⟩)

/-- The pending frame of a record dropped or cleared. -/
def State.clearFrame (s : State) (o : FrameOwner) : State :=
  match o with
  | .home lot => s.updateHome lot (fun r => { r with frame := none })
  | .entry i => s.updateEntry i (fun e => { e with frame := none })
  | .hello => { s with line.hello := none }

/-! ## Outputs -/

/-- The ring asks for ATTN while at least one slot is DONE (R79). -/
def Ring.asks (r : Ring) : Bool := r.slots.any (fun x => x.tag == .complete)

/-- ATTN: asserted while the ring asks or the line is FAULTED or DUPLICATE, deasserted while RSTN is low (R179,
R181). -/
def State.attn (s : State) : Bool :=
  !s.held && (s.ring.asks || s.line.state == .faulted || s.line.state == .duplicate)

/-! ## Time -/

/-- A running timer counts a ms down and holds at 0 until its expiry is taken (log entries 2, 3). -/
def Timer.tick (t : Timer) : Timer := t.map (· - 1)

/-- Ms of a time given in seconds. -/
def seconds (n : Nat) : Nat := n * 1000

/-- One ms of the internal timebase: what a step does on an empty queue (R97, R96, R146; log entry 2). The timebase counts
while RSTN is low too, when no timer runs (log entry 35). -/
def State.tick (s : State) : State :=
  { s with
    timebase := s.timebase + 1
    clock := s.clock.map (fun c => { c with elapsed := min (c.elapsed + 1) Config.minuteTime })
    ring.watchdog := Timer.tick s.ring.watchdog
    home := s.home.map (fun r => { r with fetchTimer := Timer.tick r.fetchTimer })
    table := s.table.map (fun e =>
      { e with fetchTimer := Timer.tick e.fetchTimer, publishTimer := Timer.tick e.publishTimer })
    line.faultTimer := Timer.tick s.line.faultTimer
    line.beaconTimer := Timer.tick s.line.beaconTimer
    line.presence := s.line.presence.map (fun p => { p with absence := Timer.tick p.absence }) }

end Sys2Proof.Machine
end

