-- ==== Sys2Proof/Machine/Lots.lean ====
section
/-! DEFINITION. Dispatch requests at the lot controller: candidates, tries, the debit, moving on, entries and castouts,
cut-off (06_the_lot_table_and_home_store.md, R104 to R117). -/

namespace Sys2Proof.Machine

/-! ## Waiting lists -/

/-- A request placed by its taking order, oldest first (R108). -/
def joinWaiting (q : Request) : List Request → List Request
  | [] => [q]
  | r :: rs => if q.order < r.order then q :: r :: rs else r :: joinWaiting q rs

/-- The request as it waits on a lot. -/
def Request.waitsOn (q : Request) (lot : Nat) : Request := { q with waitingOn := some lot }

/-- A request joins the waiting list of a home record or entry (R106, R107). -/
def State.join (s : State) (ref : RecordRef) (lot : Nat) (q : Request) : State :=
  match ref with
  | .home l => s.updateHome l (fun r => { r with waiting := joinWaiting (q.waitsOn lot) r.waiting })
  | .entry i => s.updateEntry i (fun e => { e with waiting := joinWaiting (q.waitsOn lot) e.waiting })

/-- The requests waiting on a record. -/
def State.waitingAt (s : State) (ref : RecordRef) : List Request :=
  match ref with
  | .home lot => match s.findHome lot with | some r => r.waiting | none => []
  | .entry i => (s.entry i).waiting

/-- The waiting list of a record replaced. -/
def State.setWaiting (s : State) (ref : RecordRef) (qs : List Request) : State :=
  match ref with
  | .home lot => s.updateHome lot (fun r => { r with waiting := qs })
  | .entry i => s.updateEntry i (fun e => { e with waiting := qs })

/-! ## Completion of a request -/

/-- The number of pieces asked of LB: 1, or n for a consignment (R166). -/
def Request.pieces (q : Request) : Nat := q.members.length

/-- The consignment number of a request's members: the first piece's tracking number, the filler for a parcel alone
(R168). -/
def State.consignmentNumber (s : State) (q : Request) (seq : Nat) : Bytes :=
  if q.pieces ≤ 1 then noNumberText else trackingNumber s.config seq

/-- Every member numbered and completed LABELLED; LB has been asked and can cover the request (R110, R166). -/
def State.labelRequest (s : State) (q : Request) (d : DispatchFields) : State :=
  let seq := s.sequence.getD 0
  (s.labelMembers d (s.consignmentNumber q seq) seq q.members).advanceSequence q.pieces

/-- LB cannot cover the request: NoNumber, every member refused, no figure changed (R87, R167). -/
def State.refuseNoNumber (s : State) (q : Request) : State :=
  (s.raise .noNumber).refuseSeeking q.members (some (DispatchFields.routeOnly q.route false)) .noNumber

/-- No candidate remains: NoDispatch raised once, then refused or labelled Dispatch pending by the mask (R86, R109). -/
def State.settleNoDispatch (s : State) (q : Request) : State :=
  let s := s.raise .noDispatch
  if s.config.noDispatchMask then
    if s.canCover q.pieces then s.labelRequest q (DispatchFields.routeOnly q.route true) else s.refuseNoNumber q
  else s.refuseSeeking q.members (some (DispatchFields.routeOnly q.route false)) .noDispatch

/-! ## The debit -/

/-- The figures of a record that holds its lot as owner, with its lot and reclaimed mark. -/
def State.owned (s : State) (ref : RecordRef) : Option (Nat × Figures × Bool) :=
  match ref with
  | .home lot =>
    match s.findHome lot with
    | some r => if r.holds then some (lot, r.figures, r.reclaimed) else none
    | none => none
  | .entry i =>
    match (s.entry i).lot with
    | some lot => if (s.entry i).holds then some (lot, (s.entry i).figures.getD .zero, (s.entry i).reclaimed) else none
    | none => none

/-- Steps 1, 2 and 5 of the debit on a home record or an entry: figures lowered, OWNED becomes OWNED-MODIFIED, a stopped
publish timer starts, ages set (R110). -/
def State.takeFigures (s : State) (ref : RecordRef) (q : Figures) : State :=
  match ref with
  | .home lot => s.updateHome lot (fun r => { r with figures := r.figures.lessen q })
  | .entry i =>
    (s.updateEntry i (fun e =>
      { e with
        figures := some ((e.figures.getD .zero).lessen q)
        state := .ownedModified
        publishTimer := some (e.publishTimer.getD (seconds s.config.publishDelay))
        lastUse := s.ordinal, lastDebit := s.ordinal })).nextOrdinal

/-- The dispatch fields of a debit (R110). -/
def State.debitFields (s : State) (q : Request) (lot : Nat) (reclaimed : Bool) : DispatchFields :=
  match s.planLot lot with
  | some d => ⟨q.route, d.index, d.cutOff, lot, false, reclaimed⟩
  | none => ⟨q.route, 0, 0, lot, false, reclaimed⟩

/-- The debit of one request from a record that holds its lot (R110). None when condition 1 or 2 fails and the request
moves on; a request that LB cannot cover completes refused NoNumber. -/
def State.debit (s : State) (ref : RecordRef) (q : Request) : Option State :=
  match s.owned ref with
  | none => none
  | some (lot, figures, reclaimed) =>
    if s.pastCutOff lot || !q.figures.fits figures then none
    else if s.canCover q.pieces then
      some ((s.takeFigures ref q.figures).labelRequest q (s.debitFields q lot reclaimed))
    else some (s.refuseNoNumber q)

/-! ## Entries -/

/-- The entry with the lowest key among those that qualify, the lowest number first among equals (R97). -/
def leastEntry (qualifies : LotEntry → Bool) (key : LotEntry → Nat) : Nat → List LotEntry → Option (Nat × Nat)
  | _, [] => none
  | i, e :: es =>
    match leastEntry qualifies key (i + 1) es with
    | some (j, k) => if qualifies e && key e ≤ k then some (i, key e) else some (j, k)
    | none => if qualifies e then some (i, key e) else none

/-- A FREE or COPY entry with no incoming lot. -/
def LotEntry.idle (e : LotEntry) : Bool := (e.state == .free || e.state == .copy) && e.incoming.isNone

/-- Step 1 of R115: no frame pending and no unreachable time in the future. -/
def State.replaceable (s : State) (e : LotEntry) : Bool := e.idle && e.frame.isNone && !s.unreachableNow e

/-- The least recently used entry that step 1 of R115 may take. -/
def State.chooseReplaceable (s : State) : Option Nat := (leastEntry s.replaceable (·.lastUse) 0 s.table).map (·.1)

/-- The least recently used entry that a return may take (R128). -/
def State.chooseReturn (s : State) : Option Nat := (leastEntry LotEntry.idle (·.lastUse) 0 s.table).map (·.1)

/-- An owned entry that may be cast out (R116). -/
def State.castable (s : State) (e : LotEntry) : Bool :=
  e.holds && e.queue.isEmpty && e.waiting.isEmpty && e.incoming.isNone && !e.handingOver &&
    queueable e.frame .handover &&
    (match e.lot with
     | some lot => s.isPresent (s.homeOf lot)
     | none => false)

/-- The entry to cast out: the oldest last debit (R116). -/
def State.chooseCastout (s : State) : Option Nat := (leastEntry s.castable (·.lastDebit) 0 s.table).map (·.1)

/-- An entry made afresh for a lot at this event, its former lot and memory discarded; `lastUse` is this event (R115,
R117, R128). -/
def State.makeEntry (s : State) (i lot : Nat) (state : EntryState) (waiting : List Request) : State :=
  (s.updateEntry i (fun e =>
    { LotEntry.cleared with
      lot := some lot, state := state, lastUse := s.ordinal, lastDebit := e.lastDebit, waiting := waiting })).nextOrdinal

/-- An entry cast out to its lot's home for a new lot (R116). -/
def State.castOut (s : State) (i lot : Nat) (q : Request) : State :=
  let s' := s.queue (.entry i) .handover (match (s.entry i).lot with | some l => s.homeOf l | none => 0)
  s'.updateEntry i (fun e => { e with castout := true, incoming := some ⟨lot, [q.waitsOn lot]⟩ })

/-! ## Tries -/

/-- How a try ends: the request is debited, refused for its number or waiting; it moves on; or it needs an entry that
cannot be made (R109, R115). -/
inductive TryResult where
  | settled (s : State)
  | movesOn (s : State)
  | noEntry (s : State)
  deriving DecidableEq, Repr

/-- A home record starts asking with attempt count 0; a pending RECLAIM stays and no FETCH is added (R106, R133). -/
def State.askHome (s : State) (lot : Nat) : State :=
  (s.updateHome lot (fun r => { r with state := .askingHome, attempts := 0 })).queue (.home lot) .fetch 0

/-- An entry starts asking with attempt count 0 and a FETCH pending, which replaces a pending STALL (R107). -/
def State.askEntry (s : State) (i : Nat) : State :=
  (s.updateEntry i (fun e => { e with state := .asking, attempts := 0, fetchTimer := none })).queue (.entry i) .fetch 0

/-- A debit at a try: the request moves on when it does not fit (R106, R107). -/
def State.tryDebit (s : State) (ref : RecordRef) (q : Request) : TryResult :=
  match s.debit ref q with
  | some s' => .settled s'
  | none => .movesOn s

/-- A try of a lot homed here (R106). -/
def State.tryHome (s : State) (q : Request) (lot : Nat) : TryResult :=
  match s.findHome lot with
  | none => .movesOn s
  | some r =>
    match r.state with
    | .atHome =>
      if r.queue.isEmpty && !r.handingOver then s.tryDebit (.home lot) q
      else .settled (s.join (.home lot) lot q)
    | .away =>
      if r.lastSeen.all (fun f => q.figures.fits f) then .settled ((s.askHome lot).join (.home lot) lot q)
      else .movesOn s
    | .unknown => .settled ((s.askHome lot).join (.home lot) lot q)
    | .askingHome => .settled (s.join (.home lot) lot q)
    | .ended => .movesOn s

/-- A try of a foreign lot at the entry whose lot ID it is (R107). -/
def State.tryEntry (s : State) (q : Request) (lot i : Nat) : TryResult :=
  let e := s.entry i
  match e.state with
  | .free =>
    if s.unreachableNow e then .movesOn s else .settled ((s.askEntry i).join (.entry i) lot q)
  | .copy =>
    if s.unreachableNow e || !e.figures.all (fun f => q.figures.fits f) then .movesOn s
    else .settled ((s.askEntry i).join (.entry i) lot q)
  | .asking => .settled (s.join (.entry i) lot q)
  | .owned | .ownedModified =>
    if e.castout then .movesOn s
    else if e.queue.isEmpty && !e.handingOver then s.tryDebit (.entry i) q
    else .settled (s.join (.entry i) lot q)

/-- A try of a lot that no entry names: an entry is made, or one is cast out, or none can be made (R115, R116). -/
def State.tryNewEntry (s : State) (q : Request) (lot : Nat) : TryResult :=
  match s.chooseReplaceable with
  | some i => .settled ((s.makeEntry i lot .asking [q.waitsOn lot]).queue (.entry i) .fetch 0)
  | none =>
    match s.chooseCastout with
    | some i => .settled (s.castOut i lot q)
    | none => .noEntry s

/-- A try of a foreign lot: each counts as a use of the entry that names it (R107). -/
def State.tryForeign (s : State) (q : Request) (lot : Nat) : TryResult :=
  match s.entryOf lot with
  | some i => (s.useEntry i).tryEntry q lot i
  | none =>
    match s.incomingOf lot with
    | some i =>
      .settled ((s.useEntry i).updateEntry i (fun e =>
        { e with incoming := e.incoming.map (fun c => { c with waiting := joinWaiting (q.waitsOn lot) c.waiting }) }))
    | none => s.tryNewEntry q lot

/-- A request tries a candidate; one whose cut-off has come is passed over (R106, R107). -/
def State.tryCandidate (s : State) (q : Request) (c : Candidate) : TryResult :=
  if c.cutOff ≤ s.minute then .movesOn s
  else if s.homeOf c.lot = s.own then s.tryHome q c.lot
  else s.tryForeign q c.lot

/-- A request goes through the candidates left to it within one event (R109). -/
def State.tryAll (s : State) (q : Request) : List Candidate → State
  | [] => s.settleNoDispatch q
  | c :: cs =>
    match s.tryCandidate q c with
    | .settled s' => s'
    | .movesOn s' => s'.tryAll { q with next := q.next + 1 } cs
    | .noEntry s' => s'.settleNoDispatch q

/-- A new request tries its first candidate (R104). -/
def State.startRequest (s : State) (q : Request) : State := s.tryAll q (q.candidates.drop q.next)

/-- A request that waits no longer advances and tries its next candidate (R109). -/
def State.moveOn (s : State) (q : Request) : State :=
  s.tryAll { q with next := q.next + 1, waitingOn := none } (q.candidates.drop (q.next + 1))

/-- Requests move on in ring order. -/
def State.moveOnAll (s : State) (qs : List Request) : State := qs.foldl State.moveOn s

/-! ## Arrival of a lot, cut-off, TALLY -/

/-- The first pass over a waiting list: each request debited, or set aside (R111). -/
def State.trial (s : State) (ref : RecordRef) : List Request → State × List Request
  | [] => (s, [])
  | q :: qs =>
    match s.debit ref q with
    | some s' => s'.trial ref qs
    | none =>
      let rest := s.trial ref qs
      (rest.1, q :: rest.2)

/-- The requests waiting on a lot that has just arrived are debited in ring order, the rest moving on (R111). -/
def State.debitWaiting (s : State) (ref : RecordRef) : State :=
  let rest := (s.setWaiting ref []).trial ref (s.waitingAt ref)
  rest.1.moveOnAll rest.2

/-- A record that holds its lot is due for TALLY: at or after cut-off, queue empty, no frame but a NOTICE (R113). -/
def State.tallyDue (s : State) (ref : RecordRef) : Bool :=
  match ref with
  | .home lot =>
    match s.findHome lot with
    | some r => r.holds && s.pastCutOff lot && r.queue.isEmpty && queueable r.frame .tally
    | none => false
  | .entry i =>
    let e := s.entry i
    match e.lot with
    | some lot => e.holds && s.pastCutOff lot && e.queue.isEmpty && queueable e.frame .tally
    | none => false

/-- The record is tested for TALLY (R113). -/
def State.testTally (s : State) (ref : RecordRef) : State :=
  if s.tallyDue ref then s.queue ref .tally 0 else s

/-- The requests of a lot taken off its home record, its entry and its incoming lot. -/
def State.releaseWaiting (s : State) (lot : Nat) : State × List Request :=
  let atHome := match s.findHome lot with | some r => r.waiting | none => []
  let atEntry := match s.entryOf lot with | some i => (s.entry i).waiting | none => []
  let atIncoming := match s.incomingOf lot with
    | some i => match (s.entry i).incoming with | some c => c.waiting | none => []
    | none => []
  let s1 := s.updateHome lot (fun r => { r with waiting := [] })
  let s2 := match s.entryOf lot with | some i => s1.updateEntry i (fun e => { e with waiting := [] }) | none => s1
  let s3 := match s.incomingOf lot with
    | some i => s2.updateEntry i (fun e => { e with incoming := e.incoming.map (fun c => { c with waiting := [] }) })
    | none => s2
  (s3, atHome.foldr joinWaiting (atEntry.foldr joinWaiting atIncoming))

/-- The record that holds or may hold a lot at this station: its home record, or the entry whose lot ID it is. -/
def State.recordOf (s : State) (lot : Nat) : Option RecordRef :=
  match s.findHome lot with
  | some _ => some (.home lot)
  | none => (s.entryOf lot).map .entry

/-- The owner's test for TALLY at an event of its lot. -/
def State.testTallyOf (s : State) (lot : Nat) : State :=
  match s.recordOf lot with
  | some ref => s.testTally ref
  | none => s

/-- A lot reaches its cut-off at this station (R112). -/
def State.reachCutOff (s : State) (lot : Nat) : State :=
  let released := s.releaseWaiting lot
  (released.1.moveOnAll released.2).testTallyOf lot

/-! ## The making of a request -/

/-- The first four departures of the route that admit the service and whose cut-off is after the clock (R105). -/
def candidatesOf (t : Tariff) (minute route service : Nat) : List Candidate :=
  ((t.plan.filter (fun d => d.route == route && d.mask.admits service && minute < d.cutOff)).take 4).map
    (fun d => ⟨d.lot, d.cutOff⟩)

/-- A SEEKING slot's share of its request's weight, litres and pieces (R23, R104). -/
def Slot.share (x : Slot) : Figures :=
  match x.record, x.rating with
  | some (.parcel p), some r => ⟨p.weight, r.litres, 1⟩
  | _, _ => ⟨0, 0, 0⟩

/-- The dispatch request of SEEKING members, all of one service and route (R104). -/
def State.makeRequest (s : State) (t : Tariff) (members : List Nat) (order service route : Nat) : Request where
  members := members
  order := order
  service := service
  route := route
  figures := (members.map (fun i => (s.slot i).share)).foldl Figures.plus .zero
  candidates := candidatesOf t s.minute route service
  next := 0
  waitingOn := none

end Sys2Proof.Machine
end

