-- ==== Sys2Proof/Machine/Ownership.lean ====
section
/-! DEFINITION. Lot ownership: what the lot controller does with each accepted lot frame, at a fetch timer's expiry and at
LEAVE (07_lot_ownership_on_the_hall_line.md). -/

namespace Sys2Proof.Machine

/-! ## Common parts -/

/-- The fetch timeout of the configuration as a running timer (R123). -/
def State.fullFetch (s : State) : Timer := some s.config.fetchTimeout

/-- The publish delay of the configuration as a running timer (R138). -/
def State.fullPublish (s : State) : Timer := some (seconds s.config.publishDelay)

/-- A running timer restarts with the full time; a stopped one stays stopped (R129, R140). -/
def Timer.restart (t full : Timer) : Timer := if t.isSome then full else none

/-- Whether any entry holds a lot as owner (R144). -/
def State.ownsForeign (s : State) : Bool := s.table.any LotEntry.holds

/-- LEAVING is left for SERVING when no entry holds a lot as owner (R144, R174). -/
def State.settleLeaving (s : State) : State :=
  if s.station = .leaving ∧ !s.ownsForeign then { s with station := .serving } else s

/-- The incoming lot of an entry that no longer holds its own is taken up, or dropped when nothing waits for it
(R117). -/
def State.takeUpIncoming (s : State) (i : Nat) : State :=
  match (s.entry i).incoming with
  | none => s
  | some c =>
    if c.waiting.isEmpty then s.updateEntry i (fun e => { e with incoming := none })
    else (s.makeEntry i c.lot .asking c.waiting).queue (.entry i) .fetch 0

/-- Requests waiting on a lot that has just been given up: those that fit the figures stay and the record asks again,
the others move on in ring order (R126, R135). -/
def State.askAgain (s : State) (ref : RecordRef) (figures : Figures) : State :=
  let ws := s.waitingAt ref
  let stay := ws.filter (fun q => q.figures.fits figures)
  let s1 := s.setWaiting ref stay
  let s2 :=
    if stay.isEmpty then s1
    else match ref with
      | .home lot => s1.askHome lot
      | .entry i => s1.askEntry i
  s2.moveOnAll (ws.filter (fun q => !q.figures.fits figures))

/-- A carried queue as it is taken: entries above 31, repeats and the recipient are dropped, the rest in order (R187). -/
def carriedQueue (recipient : Nat) : List Nat → List Nat → List Nat
  | taken, [] => taken
  | taken, q :: qs =>
    carriedQueue recipient (if 31 < q ∨ q = recipient ∨ q ∈ taken then taken else taken ++ [q]) qs

/-! ## HANDOVER -/

/-- The sender of an accepted HANDOVER gives up the lot (R126). -/
def State.giveUpHome (s : State) (lot : Nat) (sent : Figures) : State :=
  (s.updateHome lot (fun r =>
    { r with state := .away, figures := .zero, lastSeen := some sent, queue := [], handingOver := false })).askAgain
    (.home lot) sent

/-- The sender's entry becomes COPY with the sent figures (R126), then the end of a castout (R117). -/
def State.giveUpEntry (s : State) (i : Nat) (sent : Figures) : State :=
  ((s.updateEntry i (fun e =>
    { e with
      state := .copy, figures := some sent, publishTimer := none, queue := [], handingOver := false
      castout := false })).askAgain (.entry i) sent).takeUpIncoming i

/-- An accepted HANDOVER at its sender, whose record still holds the lot (R126). -/
def State.handoverSent (s : State) (lot : Nat) (sent : Figures) : State :=
  match s.recordOf lot with
  | some (.home l) =>
    match s.owned (.home l) with
    | some _ => s.giveUpHome l sent
    | none => s
  | some (.entry i) =>
    match s.owned (.entry i) with
    | some _ => s.giveUpEntry i sent
    | none => s
  | none => s

/-- Step 3 of R127 for a home record: the HANDOVER to the queue's head, or the test for TALLY. -/
def State.homeOnward (s : State) (lot : Nat) : State :=
  match s.findHome lot with
  | none => s
  | some r =>
    match r.queue with
    | head :: _ => s.queue (.home lot) .handover head
    | [] => s.testTally (.home lot)

/-- Step 3 of R127 for an entry; a LEAVING or SERVING station hands a lot without a queue to its home unless TALLY is
due (R145). -/
def State.entryOnward (s : State) (i : Nat) : State :=
  let e := s.entry i
  match e.queue with
  | head :: _ => s.queue (.entry i) .handover head
  | [] =>
    if s.station = .leaving ∨ s.station = .serving then
      if s.tallyDue (.entry i) then s.queue (.entry i) .tally 0
      else s.queue (.entry i) .handover (match e.lot with | some l => s.homeOf l | none => 0)
    else s.testTally (.entry i)

/-- The home takes its lot as owner (R127). -/
def State.homeReceives (s : State) (lot : Nat) (figures : Figures) (mark : Bool) (queue : List Nat) : State :=
  ((s.updateHome lot (fun r =>
    { r with
      state := .atHome, figures := figures, lastSeen := none, reclaimed := mark, queue := queue, handingOver := false
      attempts := 0, fetchTimer := none, frame := none })).debitWaiting (.home lot)).homeOnward lot

/-- An entry becomes OWNED at this event with what the HANDOVER carries; its waiting list stays (R127). -/
def State.entryTakes (s : State) (i lot : Nat) (figures : Figures) (mark : Bool) (queue : List Nat) : State :=
  (s.updateEntry i (fun e =>
    { LotEntry.cleared with
      lot := some lot, state := .owned, figures := some figures, reclaimed := mark, queue := queue
      waiting := e.waiting, incoming := e.incoming, lastUse := s.ordinal, lastDebit := s.ordinal })).nextOrdinal

/-- An entry takes the lot as owner: state, debit, onward (R127). -/
def State.entryReceives (s : State) (i lot : Nat) (figures : Figures) (mark : Bool) (queue : List Nat) : State :=
  ((s.entryTakes i lot figures mark queue).debitWaiting (.entry i)).entryOnward i

/-- The incoming lot taken off the castout entry that holds it, with the requests that waited for it (R128). -/
def State.takeIncoming (s : State) (lot : Nat) : State × List Request :=
  match s.incomingOf lot with
  | some j =>
    (s.updateEntry j (fun e => { e with incoming := none }),
      match (s.entry j).incoming with | some c => c.waiting | none => [])
  | none => (s, [])

/-- The return of a lot that this station can only pass on, from the entry taken for it: a HANDOVER to the lot's home, as
a castout (R128). A LEAVING or SERVING station sends it to the carried queue's head, or tallies it when due (R145; log
entry 28). -/
def State.returnLot (s : State) (i lot : Nat) : State :=
  if (s.station = .leaving ∨ s.station = .serving) ∧ (!(s.entry i).queue.isEmpty || s.tallyDue (.entry i)) then
    s.entryOnward i
  else (s.queue (.entry i) .handover (s.homeOf lot)).updateEntry i (fun e => { e with castout := true })

/-- A recipient without an entry for the lot makes one, takes one only to return the lot, or cannot hold it (R128). -/
def State.receiveUnnamed (s : State) (lot : Nat) (figures : Figures) (mark : Bool) (queue : List Nat) : State :=
  match s.chooseReplaceable with
  | some i =>
    let t := s.takeIncoming lot
    (t.1.makeEntry i lot .asking t.2).entryReceives i lot figures mark queue
  | none =>
    match s.chooseReturn with
    | some i =>
      let t := s.takeIncoming lot
      ((t.1.makeEntry i lot .asking t.2).entryTakes i lot figures mark queue).returnLot i lot
    | none => s

/-- An accepted HANDOVER at its recipient (R127, R128). One that already holds the lot, or whose home record is ENDED,
takes no action. -/
def State.handoverReceived (s : State) (lot : Nat) (figures : Figures) (mark : Bool) (queue : List Nat) : State :=
  if s.homeOf lot = s.own then
    match s.findHome lot with
    | none => s
    | some r =>
      match r.state with
      | .away | .unknown | .askingHome => s.homeReceives lot figures mark queue
      | .atHome | .ended => s
  else
    match s.entryOf lot with
    | some i => if (s.entry i).holds then s else s.entryReceives i lot figures mark queue
    | none => s.receiveUnnamed lot figures mark queue

/-- A home record's part in R129 and R140. -/
def HomeRecord.hears (r : HomeRecord) (figures : Figures) (full : Timer) : HomeRecord :=
  match r.state with
  | .away | .unknown => { r with state := .away, lastSeen := some figures }
  | .askingHome => { r with lastSeen := some figures, fetchTimer := Timer.restart r.fetchTimer full }
  | .atHome | .ended => r

/-- An entry's part in R129 and R140; a NOTICE carries no mark and the entry keeps its own. -/
def LotEntry.hears (e : LotEntry) (figures : Figures) (mark : Option Bool) (full : Timer) : LotEntry :=
  match e.state with
  | .copy => { e with figures := some figures, reclaimed := mark.getD e.reclaimed }
  | .asking =>
    { e with
      figures := some figures, reclaimed := mark.getD e.reclaimed, fetchTimer := Timer.restart e.fetchTimer full }
  | .free | .owned | .ownedModified => e

/-- A third party of a HANDOVER, or any station but the sender of a NOTICE, updates its record (R129, R140). -/
def State.hearFigures (s : State) (lot : Nat) (figures : Figures) (mark : Option Bool) : State :=
  match s.recordOf lot with
  | some (.home l) => s.updateHome l (fun r => r.hears figures s.fullFetch)
  | some (.entry i) => s.updateEntry i (fun e => e.hears figures mark s.fullFetch)
  | none => s

/-- An accepted HANDOVER at this station (R122, R126 to R129, R187): `mine` when this station sent it to its end. -/
def State.onHandover (s : State) (sender : Nat) (b : HandoverBody) (mine : Bool) : State :=
  match s.planLot b.lot with
  | none => s
  | some d =>
    let figures := b.figures.upTo d.capacity
    if mine then s.handoverSent b.lot figures
    else if b.recipient = s.own ∧ b.recipient ≠ sender then
      s.handoverReceived b.lot figures (b.reclaimed != 0) (carriedQueue b.recipient [] b.queue)
    else s.hearFigures b.lot figures (some (b.reclaimed != 0))

/-! ## RECLAIM -/

/-- The home's own accepted RECLAIM (R134). -/
def State.reclaimHome (s : State) (lot : Nat) (figures : Figures) : State :=
  ((s.updateHome lot (fun r =>
    { r with
      state := .atHome, figures := figures, lastSeen := none, reclaimed := true, queue := [], attempts := 0
      fetchTimer := none })).debitWaiting (.home lot)).testTally (.home lot)

/-- An owner's entry gives the lot up to a RECLAIM (R135). -/
def State.loseToReclaim (s : State) (i : Nat) (figures : Figures) : State :=
  ((((s.updateEntry i (fun e =>
    { e with
      state := .copy, figures := some figures, reclaimed := true, queue := [], handingOver := false
      castout := false, publishTimer := none, frame := none })).raise .lotReclaimed).askAgain (.entry i)
    figures).takeUpIncoming i)

/-- An entry that does not hold the lot takes the RECLAIM's figures and mark; an asking restarts (R136). -/
def State.hearReclaim (s : State) (i : Nat) (figures : Figures) : State :=
  match (s.entry i).state with
  | .asking =>
    (s.updateEntry i (fun e =>
      { e with figures := some figures, reclaimed := true, attempts := 0, fetchTimer := none })).queue (.entry i)
      .fetch 0
  | .copy | .free =>
    s.updateEntry i (fun e =>
      { e with state := .copy, figures := some figures, reclaimed := true, unreachable := none, frame := none })
  | .owned | .ownedModified => s

/-- An accepted RECLAIM at this station (R134 to R136, R187). A home record that did not send it is left as it is (log
entry 33). -/
def State.onReclaim (s : State) (lot : Nat) (carried : Figures) (mine : Bool) : State :=
  match s.planLot lot with
  | none => s
  | some d =>
    let figures := carried.upTo d.capacity
    match s.recordOf lot with
    | some (.home l) =>
      match s.findHome l with
      | none => s
      | some r =>
        match r.state with
        | .away | .unknown | .askingHome => if mine then s.reclaimHome l figures else s
        | .atHome | .ended => s
    | some (.entry i) => if (s.entry i).holds then s.loseToReclaim i figures else s.hearReclaim i figures
    | none => s

/-! ## TALLY -/

/-- The lot's incoming place dropped from the castout entry that holds it (R114). -/
def State.dropIncoming (s : State) (lot : Nat) : State :=
  match s.incomingOf lot with
  | some i => s.updateEntry i (fun e => { e with incoming := none })
  | none => s

/-- The home record ENDED with the TALLY's figures (R114). -/
def HomeRecord.tallied (r : HomeRecord) (figures : Figures) : HomeRecord :=
  if r.state = .ended then r
  else
    { r with
      state := .ended, figures := figures, lastSeen := none, queue := [], handingOver := false, attempts := 0
      fetchTimer := none, frame := none }

/-- The entry FREE with no lot ID, its ages and a castout's incoming lot kept (R114, R97, R117). -/
def LotEntry.freed (e : LotEntry) : LotEntry :=
  { LotEntry.cleared with lastUse := e.lastUse, lastDebit := e.lastDebit, incoming := e.incoming }

/-- An accepted TALLY at this station, its sender included (R114, R187). -/
def State.onTally (s : State) (lot : Nat) (carried : Figures) : State :=
  match s.planLot lot with
  | none => s
  | some d =>
    let figures := carried.upTo d.capacity
    let released := s.releaseWaiting lot
    let s1 := (released.1.updateHome lot (fun r => r.tallied figures)).dropIncoming lot
    let s2 :=
      match s.entryOf lot with
      | some i => (s1.updateEntry i LotEntry.freed).takeUpIncoming i
      | none => s1
    s2.moveOnAll released.2

/-! ## FETCH, STALL, NOTICE -/

/-- The sender of an accepted FETCH starts its fetch timer (R123). -/
def State.fetchSent (s : State) (lot : Nat) : State :=
  match s.recordOf lot with
  | some (.home l) =>
    s.updateHome l (fun r => if r.state = .askingHome then { r with fetchTimer := s.fullFetch } else r)
  | some (.entry i) =>
    s.updateEntry i (fun e => if e.state = .asking then { e with fetchTimer := s.fullFetch } else e)
  | none => s

/-- Whether an owner takes a FETCH: no TALLY pending, the requester neither in the queue nor the owner (R124). -/
def takesFetch (own requester : Nat) (frame : Option PendingFrame) (queue : List Nat) : Bool :=
  !(frame.any (fun f => f.kind == .tally)) && requester != own && !queue.contains requester

/-- The owner of the lot appends the requester, and queues the HANDOVER to the queue's head unless one is pending
(R124, R125). -/
def State.ownerFetched (s : State) (ref : RecordRef) (requester : Nat) : State :=
  match ref with
  | .home lot =>
    match s.findHome lot with
    | none => s
    | some r =>
      if r.holds && takesFetch s.own requester r.frame r.queue then
        (s.updateHome lot (fun r => { r with queue := r.queue ++ [requester] })).queue (.home lot) .handover
          ((r.queue ++ [requester]).headD requester)
      else s
  | .entry i =>
    let e := s.entry i
    if e.holds && takesFetch s.own requester e.frame e.queue then
      (s.updateEntry i (fun e => { e with queue := e.queue ++ [requester] })).queue (.entry i) .handover
        ((e.queue ++ [requester]).headD requester)
    else s

/-- An accepted FETCH at this station (R123, R124). -/
def State.onFetch (s : State) (sender lot : Nat) (mine : Bool) : State :=
  match s.planLot lot, s.recordOf lot with
  | some _, some ref =>
    let s' := s.ownerFetched ref sender
    if mine then s'.fetchSent lot else s'
  | _, _ => s

/-- An accepted STALL at this station: the home of an AWAY or UNKNOWN lot asks (R133). -/
def State.onStall (s : State) (lot : Nat) : State :=
  match s.planLot lot, s.findHome lot with
  | some _, some r =>
    match r.state with
    | .away | .unknown => s.askHome lot
    | .atHome | .askingHome | .ended => s
  | _, _ => s

/-- The sender's own accepted NOTICE, while it was still the entry's pending frame (R139). -/
def State.noticeSent (s : State) (lot : Nat) (carried : Figures) : State :=
  match s.entryOf lot with
  | some i =>
    if (s.entry i).holds then
      (s.updateEntry i (fun e =>
        if e.figures = some carried then { e with state := .owned, publishTimer := none }
        else { e with publishTimer := s.fullPublish })).testTally (.entry i)
    else s
  | none => s

/-- An accepted NOTICE at this station (R139, R140, R187): `wasPending` when this station sent it and it was still the
record's pending frame. -/
def State.onNotice (s : State) (lot : Nat) (carried : Figures) (mine wasPending : Bool) : State :=
  match s.planLot lot with
  | none => s
  | some d =>
    if mine then if wasPending then s.noticeSent lot carried else s
    else s.hearFigures lot (carried.upTo d.capacity) none

/-! ## Expiry of a fetch timer -/

/-- The entry as its asking leaves it: COPY when it holds figures, FREE otherwise; `remember` keeps the lot ID and
unreachable time of a FREE one (R131, R144, R145). -/
def LotEntry.askingEnds (e : LotEntry) (remember : Bool) : LotEntry :=
  if e.figures.isSome then { e with state := .copy, attempts := 0, fetchTimer := none }
  else if remember then { e with state := .free, attempts := 0, fetchTimer := none }
  else { LotEntry.cleared with lastUse := e.lastUse, lastDebit := e.lastDebit, waiting := e.waiting }

/-- The third expiry at an entry of a READY station: the asking fails (R131). -/
def State.askingFails (s : State) (i : Nat) : State :=
  let ws := s.waitingAt (.entry i)
  let s1 := s.queue (.entry i) .stall 0
  (s1.updateEntry i (fun e =>
    { (e.askingEnds true) with
      unreachable := some (s.timebase + 8 * s.config.fetchTimeout), waiting := [] })).moveOnAll ws

/-- An expiry of an ASKING entry's fetch timer (R130, R131, R145). -/
def State.entryExpiry (s : State) (i : Nat) : State :=
  let e := s.entry i
  if e.state = .asking ∧ e.fetchTimer.isSome then
    let s1 := s.updateEntry i (fun e => { e with attempts := e.attempts + 1, fetchTimer := none })
    if s.station = .leaving ∨ s.station = .serving then s1.updateEntry i (fun e => e.askingEnds false)
    else if e.attempts + 1 < Config.expiryLimit then s1.queue (.entry i) .fetch 0
    else s1.askingFails i
  else s

/-- A home that gives up asking returns to AWAY or UNKNOWN when nothing waits (R132); also its warm reset (R119). -/
def HomeRecord.askingEnds (r : HomeRecord) : HomeRecord :=
  { r with
    state := if r.lastSeen.isSome then .away else .unknown
    attempts := 0, fetchTimer := none }

/-- An expiry of an ASKING-HOME record's fetch timer (R130, R132). -/
def State.homeExpiry (s : State) (lot : Nat) : State :=
  match s.findHome lot with
  | none => s
  | some r =>
    if r.state = .askingHome ∧ r.fetchTimer.isSome then
      let s1 := s.updateHome lot (fun r => { r with attempts := r.attempts + 1, fetchTimer := none })
      if r.attempts + 1 < Config.expiryLimit then s1.queue (.home lot) .fetch 0
      else
        let s2 := s1.queue (.home lot) .reclaim 0
        if r.waiting.isEmpty then s2.updateHome lot HomeRecord.askingEnds else s2
    else s

/-! ## LEAVE -/

/-- The FETCH of an entry's present asking has been accepted: its timer runs, or has expired (R144; log entry 24). -/
def LotEntry.fetchAccepted (e : LotEntry) : Bool := e.fetchTimer.isSome || 0 < e.attempts

/-- One entry at LEAVE (R144). -/
def State.leaveEntry (s : State) (i : Nat) : State :=
  let e := s.entry i
  if e.holds then s.queue (.entry i) .handover (match e.lot with | some l => s.homeOf l | none => 0)
  else if e.state = .asking ∧ !e.fetchAccepted then
    s.updateEntry i (fun e => { (e.askingEnds false) with frame := none })
  else s

/-- The lot table at LEAVE, entry by entry in the order of the entry numbers (R144; log entry 37). -/
def State.leaveTable (s : State) : State := (List.range s.table.length).foldl State.leaveEntry s

end Sys2Proof.Machine
end

