-- ==== Sys2Proof/Machine/Line.lean ====
section
/-! DEFINITION. The hall line: frames as bytes and bits, a receiver's judgement, transmit selection, acceptance, failed
attempts, line states, presence (08_hall_line_framing_and_access.md; R186). -/

namespace Sys2Proof.Machine

/-! ## Frames as they go over the line -/

/-- The ten bytes of a lot's figures: weight, litres, pieces (R186). -/
def figureBytes (f : Figures) : Bytes := toBytes 4 f.weight ++ toBytes 4 f.litres ++ toBytes 2 f.pieces

/-- A frame's body bytes (R186). -/
def bodyBytes : FrameBody → Bytes
  | .handover b =>
    toBytes 1 b.recipient ++ toBytes 2 b.lot ++ figureBytes b.figures ++ toBytes 1 b.reclaimed ++
      toBytes 1 b.queue.length ++ b.queue.map (BitVec.ofNat 8)
  | .reclaim l f | .tally l f | .notice l f => toBytes 2 l ++ figureBytes f
  | .fetch l | .stall l => toBytes 2 l
  | .hello e n => toBytes 2 e ++ toBytes 4 n.toNat
  | .unknown c => c

/-- The header byte: the kind in three bits, then the sender's number in five (R148). -/
def headerByte (f : HallFrame) : Byte := BitVec.ofNat 8 (bodyKind f.body * 32 + f.sender % 32)

/-- Header byte, count byte and body, the bytes the CRC covers (R148). -/
def coveredBytes (f : HallFrame) : Bytes :=
  headerByte f :: BitVec.ofNat 8 (bodyBytes f.body).length :: bodyBytes f.body

/-- The bytes of a frame from the header byte to the CRC (R148). -/
def frameBytes (f : HallFrame) : Bytes := coveredBytes f ++ toBytes 2 (crc16 (coveredBytes f)).toNat

/-- The eight bits of a byte as the line carries them, most significant first, true being recessive, then the dominant
separator (R148). -/
def byteBits (b : Byte) : List Bool :=
  [b.getLsbD 7, b.getLsbD 6, b.getLsbD 5, b.getLsbD 4, b.getLsbD 3, b.getLsbD 2, b.getLsbD 1, b.getLsbD 0, false]

/-- The bits of a frame from its dominant start bit to its last separator (R148). -/
def frameBits (f : HallFrame) : List Bool := false :: (frameBytes f).flatMap byteBits

/-! ## A receiver's judgement -/

/-- Whether a count byte agrees with the kind; for a HANDOVER, with its queue count, which is at most 31 (R152, R186). -/
def countAgrees (kind : Nat) (body : Bytes) : Bool :=
  match kind with
  | 0 => 15 ≤ body.length && field body 14 1 ≤ 31 && body.length == 15 + field body 14 1
  | 1 | 2 | 5 => body.length == 12
  | 3 | 4 => body.length == 2
  | 6 => body.length == 6
  | _ => true

/-- The kind code of a header byte. -/
def kindOfHeader (b : Byte) : Nat := b.toNat / 32

/-- The body of received bytes: what stands between the count byte and the CRC. -/
def bodyOf (bs : Bytes) : Bytes := (bs.drop 2).take (bs.length - 4)

/-- A frame is faulty at a receiver: a recessive separator, a CRC that does not match, or a count byte that does not
agree with the kind or with the bytes read (R152). -/
def faulty (r : Reception) : Bool :=
  !r.separatorsDominant || r.bytes.length < 4 ||
    crc16 (r.bytes.take (r.bytes.length - 2)) != BitVec.ofNat 16 (ofBytes (r.bytes.drop (r.bytes.length - 2))) ||
    field r.bytes 1 1 != (bodyOf r.bytes).length ||
    !countAgrees (kindOfHeader (r.bytes.headD 0)) (bodyOf r.bytes)

/-! ## Presence -/

/-- The sender of an accepted frame is present, its absence timer at 60 s (R161). -/
def State.markPresent (s : State) (station : Nat) : State :=
  { s with line.presence := s.line.presence.modify station (fun _ => ⟨true, some Config.absenceTime⟩) }

/-! ## Line states -/

/-- Entry to DUPLICATE; in DUPLICATE already, nothing changes further (R156). -/
def State.enterDuplicate (s : State) : State :=
  if s.line.state = .duplicate then s
  else
    ({ s with
      line.state := .duplicate, line.attempt := none, line.beaconTimer := none, line.faultTimer := none
      line.transmission := none }).raise .duplicate

/-- Entry to FAULTED (R155). -/
def State.enterFaulted (s : State) : State :=
  ({ s with
    line.state := .faulted, line.attempt := none, line.beaconTimer := none
    line.faultTimer := some Config.faultTime }).raise .lineFault

/-- The attempt record after a failed attempt of a frame (R154). -/
def nextAttempt (a : Option Attempt) (t : Transmission) : Attempt :=
  match a with
  | some a =>
    if a.owner = t.owner ∧ a.queuedAt = t.queuedAt then { a with count := a.count + 1 } else ⟨t.owner, t.queuedAt, 1⟩
  | none => ⟨t.owner, t.queuedAt, 1⟩

/-- A failed attempt of the frame in transmission; the eighth in a row takes the line to FAULTED (R154). Frames are
sent in JOINING and ACTIVE alone (R147). -/
def State.failAttempt (s : State) (t : Transmission) : State :=
  let s := { s with line.transmission := none }
  if s.line.state = .joining ∨ s.line.state = .active then
    if (nextAttempt s.line.attempt t).count < Config.attemptLimit then
      { s with line.attempt := some (nextAttempt s.line.attempt t) }
    else s.enterFaulted
  else s

/-! ## Choosing and forming a frame -/

/-- The pending lot frames of the home records and entries (R146, R157). -/
def State.pendingLotFrames (s : State) : List (FrameOwner × PendingFrame) :=
  s.home.filterMap (fun r => r.frame.map (fun f => (.home r.lot, f))) ++
    s.table.zipIdx.filterMap (fun e => e.1.frame.map (fun f => (.entry e.2, f)))

/-- The lower kind number first, then the earlier queuing time (R157). -/
def PendingFrame.before (a b : PendingFrame) : Bool :=
  a.kind.code < b.kind.code || (a.kind.code == b.kind.code && a.queuedAt < b.queuedAt)

/-- The first frame in the order of R157. -/
def firstFrame : List (FrameOwner × PendingFrame) → Option (FrameOwner × PendingFrame)
  | [] => none
  | f :: fs =>
    match firstFrame fs with
    | some g => if g.2.before f.2 then some g else some f
    | none => some f

/-- The pending HELLO. -/
def State.pendingHello (s : State) : List (FrameOwner × PendingFrame) :=
  match s.line.hello with
  | some q => [(.hello, ⟨.hello, 0, q⟩)]
  | none => []

/-- The frame to offer: by kind and age in ACTIVE, the HELLO in JOINING, none elsewhere (R157). -/
def State.chooseFrame (s : State) : Option (FrameOwner × PendingFrame) :=
  match s.line.state with
  | .active => firstFrame (s.pendingLotFrames ++ s.pendingHello)
  | .joining => firstFrame s.pendingHello
  | .off | .listen | .faulted | .duplicate => none

/-- The body of a home record's frame, formed from the record as it stands at the win (R121, R125, R134). -/
def HomeRecord.formBody (r : HomeRecord) (f : PendingFrame) : FrameBody :=
  match f.kind with
  | .handover =>
    .handover ⟨f.recipient, r.lot, r.figures, if r.reclaimed then 1 else 0, r.queue.filter (· != f.recipient)⟩
  | .reclaim => .reclaim r.lot (r.lastSeen.getD .zero)
  | .tally => .tally r.lot r.figures
  | .fetch => .fetch r.lot
  | .stall => .stall r.lot
  | .notice => .notice r.lot r.figures
  | .hello => .unknown []

/-- The body of an entry's frame, formed from the entry as it stands at the win (R121, R125, R138). -/
def LotEntry.formBody (e : LotEntry) (f : PendingFrame) : FrameBody :=
  let lot := e.lot.getD 0
  let figures := e.figures.getD .zero
  match f.kind with
  | .handover =>
    .handover ⟨f.recipient, lot, figures, if e.reclaimed then 1 else 0, e.queue.filter (· != f.recipient)⟩
  | .reclaim => .reclaim lot figures
  | .tally => .tally lot figures
  | .fetch => .fetch lot
  | .stall => .stall lot
  | .notice => .notice lot figures
  | .hello => .unknown []

/-- The body formed at the win by the record that owns the frame; HL forms the HELLO's itself (R150, R159). -/
def State.formBody (s : State) (o : FrameOwner) (f : PendingFrame) : FrameBody :=
  match o with
  | .home lot =>
    match s.findHome lot with
    | some r => r.formBody f
    | none => .unknown []
  | .entry i => (s.entry i).formBody f
  | .hello => .hello s.edition Config.factorySerial

/-- The pending frame of the record in transmission, while it is still the one offered (R150, R154). -/
def State.stillOffered (s : State) (t : Transmission) : Option PendingFrame :=
  match s.pendingFrame t.owner with
  | some f => if f.kind = t.kind ∧ f.queuedAt = t.queuedAt then some f else none
  | none => none

/-! ## Acceptance and rejection -/

/-- This station sent the frame to the end of its CRC (R153; log entry 5). -/
def State.sentToEnd (s : State) (f : HallFrame) : Option Transmission :=
  match s.line.transmission with
  | some t => if t.formed = some f then some t else none
  | none => none

/-- Step 2 of R153 at an own accepted frame: the attempt record cleared, the beacon timer restarted when ACTIVE, the
pending frame cleared if it is still that frame (R121, R159). -/
def State.ownAccepted (s : State) (t : Transmission) : State :=
  let s1 : State := { s with
    line.attempt := none
    line.beaconTimer := if s.line.state = .active then some Config.beaconTime else s.line.beaconTimer }
  match s.stillOffered t with
  | some _ => s1.clearFrame t.owner
  | none => s1

/-- Steps 1 to 3 of R153 with the end of any transmission (log entry 5). -/
def State.takeFrame (s : State) (f : HallFrame) : State :=
  let s1 := (match s.sentToEnd f with
    | some t => (s.markPresent f.sender).ownAccepted t
    | none => if f.sender = s.own then (s.markPresent f.sender).enterDuplicate else s.markPresent f.sender)
  { s1 with line.transmission := none, line.droveSlot := false }

/-- Whether the accepted frame was this station's own. -/
def State.isOwnFrame (s : State) (f : HallFrame) : Bool := (s.sentToEnd f).isSome

/-- Whether it was its own and was still the pending frame of its record at the acceptance (R121, R139). -/
def State.ownFramePending (s : State) (f : HallFrame) : Bool :=
  match s.sentToEnd f with
  | some t => (s.stillOffered t).isSome
  | none => false

/-- An accepted frame at a station that receives (R152, R153): presence, own frame or duplicate number, then delivery
to LC while the station is in service (R122). A station in OFF takes nothing. -/
def State.acceptLotFrame (s : State) (f : HallFrame) (deliver : State → State) : State :=
  if s.line.state = .off then s
  else if s.inService then (deliver (s.takeFrame f)).settleLeaving
  else s.takeFrame f

/-- The station's own frame is on the line past its win: the station is its sender (R150, R151). -/
def LineController.sends (l : LineController) : Bool := l.transmission.any (·.formed.isSome)

/-- A frame rejected in its acceptance slot, seen by a station that receives (R152 to R154). Its sender drives nothing in
the slot (R151). -/
def State.hearRejected (s : State) (drove : Bool) : State :=
  if s.line.state = .off then s
  else
    let s1 := { s.countRejected with line.droveSlot := drove && !s.line.sends }
    match s1.line.transmission with
    | some t => if t.formed.isSome then s1.failAttempt t else { s1 with line.transmission := none }
    | none => s1

/-- A transmission cut off, its attempt not counted (R150, R154, R162). -/
def State.stopSending (s : State) : State := { s with line.transmission := none }

end Sys2Proof.Machine
end

