-- ==== Sys2Proof/Decode.lean ====
section
/-! DEFINITION. Commands from bytes: the terminal port's command frames and the hall line's frames, each way (R172, R182,
R183, R186). The opcode table gives no row any bits. -/

namespace Sys2Proof

open Sys2Proof.Machine

/-- The command that a word spells by the table's bits. No row of spec/opcode_table.json has bits: none. -/
def decodeTableWord (_nbits _w : Nat) : Option Instr := none

/-! ## Records sent by the terminal (R182) -/

/-- A configuration record from its 21 bytes. -/
def readConfig (bs : Bytes) : ConfigRecord where
  stationCount := field bs 0 1
  stationNumber := field bs 1 1
  day := field bs 2 2
  timeOfDay := field bs 4 2
  sequenceStart := field bs 6 4
  networkPrefix := (bs.drop 10).take 2
  expectedEdition := field bs 12 2
  openingFlag := field bs 14 1
  fetchTimeout := field bs 15 2
  publishDelay := field bs 17 1
  watchdog := field bs 18 2
  maskClearing := BitVec.ofNat 8 (field bs 20 1)

/-- The 21 bytes of a configuration record. -/
def configBytes (r : ConfigRecord) : Bytes :=
  toBytes 1 r.stationCount ++ toBytes 1 r.stationNumber ++ toBytes 2 r.day ++ toBytes 2 r.timeOfDay ++
    toBytes 4 r.sequenceStart ++ r.networkPrefix ++ toBytes 2 r.expectedEdition ++ toBytes 1 r.openingFlag ++
    toBytes 2 r.fetchTimeout ++ toBytes 1 r.publishDelay ++ toBytes 2 r.watchdog ++ [r.maskClearing]

/-- A parcel record from its 25 bytes. -/
def readParcel (bs : Bytes) : ParcelRecord where
  terminalTag := field bs 0 2
  service := field bs 2 1
  options := BitVec.ofNat 8 (field bs 3 1)
  weight := field bs 4 4
  length := field bs 8 2
  width := field bs 10 2
  height := field bs 12 2
  destination := (bs.drop 14).take 6
  declaredValue := field bs 20 4
  pieceMark := field bs 24 1

/-- The 25 bytes of a parcel record. -/
def parcelBytes (r : ParcelRecord) : Bytes :=
  toBytes 2 r.terminalTag ++ toBytes 1 r.service ++ [r.options] ++ toBytes 4 r.weight ++ toBytes 2 r.length ++
    toBytes 2 r.width ++ toBytes 2 r.height ++ r.destination ++ toBytes 4 r.declaredValue ++ toBytes 1 r.pieceMark

/-- A screen record from its 181 bytes. -/
def readScreen (bs : Bytes) : ScreenRecord := ⟨field bs 0 2, readScreenBody (bs.drop 2)⟩

/-- The seven bytes of each entry. -/
def entryBytes (es : List ScreenEntry) : Bytes := es.flatMap (fun e => toBytes 1 e.length ++ e.characters)

/-- The 179 bytes of a screen body. -/
def screenBodyBytes (b : ScreenBody) : Bytes :=
  toBytes 1 b.kind ++ toBytes 1 b.inverse ++ toBytes 1 b.count ++ entryBytes b.entries ++
    tableBytes 64 b.hashTable.toNat

/-- The 181 bytes of a screen record. -/
def screenBytes (r : ScreenRecord) : Bytes := toBytes 2 r.terminalTag ++ screenBodyBytes r.body

/-! ## Command frames (R182, R183) -/

/-- SUBMIT by its record kind byte: a known kind has its own length, an unknown one passes check 1 at any (R183). -/
def decodeSubmit (n : Nat) (args : Bytes) : Instr :=
  if n = 0 then .unknownCommand (.length 2 n)
  else
    match field args 0 1 with
    | 0 => if n = 26 then .submit (.parcel (readParcel (args.drop 1))) else .unknownCommand (.length 2 n)
    | 1 => if n = 182 then .submit (.screen (readScreen (args.drop 1))) else .unknownCommand (.length 2 n)
    | k => .submit (.unknownKind k)

/-- CLEAR by its flag count; one above 16 passes check 1 at any length, and its codes are not read (R183). -/
def decodeClear (n : Nat) (args : Bytes) : Instr :=
  if n = 0 then .unknownCommand (.length 7 n)
  else if 16 < field args 0 1 then .clearSummary ⟨field args 0 1, []⟩
  else if n = 1 + field args 0 1 then .clearSummary ⟨field args 0 1, (args.drop 1).map BitVec.toNat⟩
  else .unknownCommand (.length 7 n)

/-- RESET by its argument (R182, R183). -/
def decodeReset (a : Nat) : Instr :=
  match a with
  | 1 => .resetWarm
  | 2 => .resetFull
  | a => .unknownCommand (.resetArgument a)

/-- A command of fixed argument length, or a frame that fails check 1 (R183). -/
def ofLength (code n expected : Nat) (i : Instr) : Instr :=
  if n = expected then i else .unknownCommand (.length code n)

/-- The command of a code, an argument length and the arguments (R182, R183). -/
def decodeArguments (code n : Nat) (args : Bytes) : Instr :=
  match code with
  | 1 => ofLength 1 n 21 (.configure (readConfig args))
  | 2 => decodeSubmit n args
  | 3 => ofLength 3 n 1 (.collect (field args 0 1))
  | 4 => ofLength 4 n 1 (.peek (field args 0 1))
  | 5 => ofLength 5 n 1 (.withdraw (field args 0 1))
  | 6 => ofLength 6 n 0 .status
  | 7 => decodeClear n args
  | 8 => ofLength 8 n 2 (.lotView (field args 0 2))
  | 9 => ofLength 9 n 0 .leave
  | 10 => ofLength 10 n 1 (decodeReset (field args 0 1))
  | c => .unknownCommand (.code c)

/-- The command of one select period's bytes on TDI: a frame cut short is discarded, bytes after it are ignored (R172,
R183). -/
def decodeCommand (bs : Bytes) : Instr :=
  if bs.length < 3 ∨ bs.length < 3 + field bs 1 2 then .commandDiscarded
  else decodeArguments (field bs 0 1) (field bs 1 2) ((bs.drop 3).take (field bs 1 2))

/-- A frame of a code and its arguments (R182). -/
def commandFrame (code : Nat) (args : Bytes) : Bytes := toBytes 1 code ++ toBytes 2 args.length ++ args

/-- Arguments of a length that the code does not take: for SUBMIT and CLEAR the first byte names the kind or count that
the length does not fit. -/
def misfitArguments (code n : Nat) : Bytes :=
  match code, n with
  | 2, 26 => toBytes 1 1 ++ List.replicate 25 0
  | 7, 1 => toBytes 1 1
  | _, n => List.replicate n 0

/-- The bytes of one select period that spell a terminal command; an event that is none has no bytes. -/
def encodeCommand : Instr → Bytes
  | .configure r => commandFrame 1 (configBytes r)
  | .submit (.parcel r) => commandFrame 2 (toBytes 1 0 ++ parcelBytes r)
  | .submit (.screen r) => commandFrame 2 (toBytes 1 1 ++ screenBytes r)
  | .submit (.unknownKind k) => commandFrame 2 (toBytes 1 k)
  | .collect i => commandFrame 3 (toBytes 1 i)
  | .peek i => commandFrame 4 (toBytes 1 i)
  | .withdraw i => commandFrame 5 (toBytes 1 i)
  | .status => commandFrame 6 []
  | .clearSummary f => commandFrame 7 (toBytes 1 f.count ++ f.codes.map (BitVec.ofNat 8))
  | .lotView l => commandFrame 8 (toBytes 2 l)
  | .leave => commandFrame 9 []
  | .resetWarm => commandFrame 10 (toBytes 1 1)
  | .resetFull => commandFrame 10 (toBytes 1 2)
  | .unknownCommand (.code c) => commandFrame c []
  | .unknownCommand (.length c n) => commandFrame c (misfitArguments c n)
  | .unknownCommand (.resetArgument a) => commandFrame 10 (toBytes 1 a)
  | _ => []

/-- Whether a row is a command of the terminal port, with a frame of its own or a frame cut short. -/
def Instr.fromTerminal : Instr → Bool
  | .configure _ | .submit _ | .collect _ | .peek _ | .withdraw _ | .status | .clearSummary _ | .lotView _ | .leave
  | .resetWarm | .resetFull | .unknownCommand _ | .commandDiscarded => true
  | _ => false

/-! ## Hall line frames (R148, R186) -/

/-- Figures from their ten bytes. -/
def readFigures (bs : Bytes) : Figures := ⟨field bs 0 4, field bs 4 4, field bs 8 2⟩

/-- A body by its kind code; that of kind 7 is not read. -/
def readBody (kind : Nat) (bs : Bytes) : FrameBody :=
  match kind with
  | 0 => .handover ⟨field bs 0 1, field bs 1 2, readFigures (bs.drop 3), field bs 13 1, (bs.drop 15).map BitVec.toNat⟩
  | 1 => .reclaim (field bs 0 2) (readFigures (bs.drop 2))
  | 2 => .tally (field bs 0 2) (readFigures (bs.drop 2))
  | 3 => .fetch (field bs 0 2)
  | 4 => .stall (field bs 0 2)
  | 5 => .notice (field bs 0 2) (readFigures (bs.drop 2))
  | 6 => .hello (field bs 0 2) (BitVec.ofNat 32 (field bs 2 4))
  | _ => .unknown bs

/-- The frame of received bytes, none when the receiver finds them faulty (R152). -/
def decodeFrame (bs : Bytes) : Option HallFrame :=
  if faulty ⟨bs, true⟩ then none
  else some ⟨(bs.headD 0).toNat % 32, readBody (kindOfHeader (bs.headD 0)) (bodyOf bs)⟩

/-- The row of the table that an accepted frame is. -/
def HallFrame.event (f : HallFrame) : Instr :=
  match f.body with
  | .handover b => .handoverAccepted f.sender b
  | .reclaim l g => .reclaimAccepted f.sender l g
  | .tally l g => .tallyAccepted f.sender l g
  | .fetch l => .fetchAccepted f.sender l
  | .stall l => .stallAccepted f.sender l
  | .notice l g => .noticeAccepted f.sender l g
  | .hello e n => .helloAccepted f.sender e n
  | .unknown c => .unknownKindFrameAccepted f.sender c

end Sys2Proof
end

