-- ==== Sys2Proof/Machine/RingOps.lean ====
section
/-! DEFINITION. The parcel ring: submission, the rate position, consignments, the watchdog, COLLECT, PEEK and WITHDRAW
(04_parcel_ring_and_consignments.md). -/

namespace Sys2Proof.Machine

/-- The next position, wrapping from 7 to 0 (R56). -/
def nextPosition (n : Nat) : Nat := (n + 1) % Config.slotCount

/-! ## Submission -/

/-- A record placed QUEUED in the slot at the put position (R59). -/
def State.place (s : State) (r : Record) : State :=
  { s with
    ring.slots := s.ring.slots.modify s.ring.put (fun _ => { Slot.vacant with tag := .queued, record := some r })
    ring.put := nextPosition s.ring.put
    ring.pendingCount := s.ring.pendingCount + 1 }

/-- The two conditions of R59: the slot at the put position EMPTY, the pending count below 8. -/
def State.hasRoom (s : State) : Bool := (s.slot s.ring.put).tag == .empty && s.ring.pendingCount < Config.slotCount

/-! ## Consignments -/

/-- A member's consignment link with the final member list, its piece index being its place in it (R57). -/
def State.linkMembers (s : State) (all : List Nat) : (piece : Nat) → List Nat → State
  | _, [] => s
  | piece, i :: is => (s.updateSlot i (fun x => { x with link := some ⟨all, piece⟩ })).linkMembers all (piece + 1) is

/-- The open-consignment record becomes absent and the watchdog stops (R62, R66, R70, R76). -/
def State.closeConsignment (s : State) : State := { s with ring.consignment := none, ring.watchdog := none }

/-- Every member of an open consignment refused with one reason, its exception raised once (R62, R70, R76, R81). -/
def State.refuseConsignment (s : State) (members : List Nat) (why : Reason) (flag : Flag) : State :=
  (((s.linkMembers members 1 members).refuseMembers members none why).closeConsignment).raise flag

/-- When a consignment is open, a record that cannot join it ends it for ConsignmentOrder (R62). -/
def State.endOpenConsignment (s : State) : State :=
  match s.ring.consignment with
  | some c => s.refuseConsignment c.members .consignmentOrder .consignmentOrder
  | none => s

/-- A MIDDLE or LAST piece with no consignment open is refused alone (R65, R66). -/
def State.refuseAlone (s : State) (i : Nat) : State :=
  (s.completeParcel i none (.refused .consignmentOrder)).raise .consignmentOrder

/-- A FIRST piece opens a consignment (R64). -/
def State.openConsignment (s : State) (i : Nat) (p : ParcelRecord) : State :=
  let s1 := s.updateSlot i (fun x => { x with tag := .grouped, link := some ⟨[i], 1⟩ })
  { s1 with
    ring.consignment := some ⟨[i], p.service, p.destination⟩
    ring.watchdog := some (seconds s.config.watchdog) }

/-- A piece matches the open consignment by service code and destination characters as submitted (R67). -/
def Consignment.matchedBy (c : Consignment) (p : ParcelRecord) : Bool :=
  p.service == c.service && p.destination == c.destination

/-- A MIDDLE piece that joins becomes GROUPED; the watchdog runs on (R65). -/
def State.joinConsignment (s : State) (i : Nat) (c : Consignment) : State :=
  let members := c.members ++ [i]
  let s1 := s.updateSlot i (fun x => { x with tag := .grouped, link := some ⟨members, members.length⟩ })
  { s1 with ring.consignment := some { c with members := members } }

/-- A MIDDLE piece (R65). -/
def State.takeMiddle (s : State) (i : Nat) (p : ParcelRecord) : State :=
  match s.ring.consignment with
  | none => s.refuseAlone i
  | some c =>
    if !c.matchedBy p || Config.slotCount ≤ c.members.length + 1 then
      s.refuseConsignment (c.members ++ [i]) .consignmentOrder .consignmentOrder
    else s.joinConsignment i c

/-! ## Rating and the start of a request -/

/-- The masks a rating reads. -/
def State.ratingMasks (s : State) : RatingMasks := ⟨s.config.restrictedMask, s.config.overflowMask⟩

/-- The screen in force; a READY station holds one (R44). -/
def State.activeScreen (s : State) : Screen := s.screen.getD Screen.openScreen

/-- The parcel record of a slot. -/
def State.parcelAt (s : State) (i : Nat) : Option ParcelRecord :=
  match (s.slot i).record with
  | some (.parcel p) => some p
  | _ => none

/-- A rating result written into its slot (R2). -/
def State.writeRating (s : State) (i : Nat) (r : Option RatingResult) : State :=
  s.updateSlot i (fun x => { x with rating := r })

/-- Rating results written into the members' slots. -/
def State.writeRatings (s : State) : List (Nat × Option RatingResult) → State
  | [] => s
  | (i, r) :: rest => (s.writeRating i r).writeRatings rest

/-- A rated slot becomes SEEKING (R63, R66). -/
def State.seek (s : State) (i : Nat) : State := s.updateSlot i (fun x => { x with tag := .seeking })

/-- The dispatch request of members just rated is made and tries its first candidate (R104). The taking order is the
count of records taken so far, this one included. -/
def State.dispatch (s : State) (t : Tariff) (members : List Nat) (service route : Nat) : State :=
  s.startRequest (s.makeRequest t members s.ring.takings service route)

/-- A record standing alone is rated (R63). -/
def State.rateAlone (s : State) (t : Tariff) (i : Nat) (p : ParcelRecord) : State :=
  match rateRecord t s.activeScreen s.ratingMasks none p with
  | (result, flags) =>
    let s1 := (s.writeRating i (some result)).raiseAll flags
    match result.refusal with
    | some why => s1.completeParcel i none (.refused why)
    | none => (s1.seek i).dispatch t [i] p.service result.route

/-- Each member of a consignment refused at rating completes with its own reason (R25). -/
def State.refuseRated (s : State) : List (Nat × Option RatingResult) → State
  | [] => s
  | (i, r) :: rest => (s.completeParcel i none (.refused (peerReason r))).refuseRated rest

/-- A consignment that closes is rated as one (R23, R25, R66). -/
def State.rateConsignment (s : State) (t : Tariff) (members : List Nat) (service : Nat) : State :=
  match ratePieces t s.activeScreen s.ratingMasks members.length (members.filterMap s.parcelAt) with
  | (results, flags, whole) =>
    let rated := members.zip results
    let s1 := (s.writeRatings rated).raiseAll flags
    if whole then
      (members.foldl State.seek s1).dispatch t members service
        ((rated.filterMap (·.2)).head?.elim 0 (·.route))
    else (s1.refuseRated rated).raise .consignmentPeer

/-- A LAST piece (R66). -/
def State.takeLast (s : State) (t : Tariff) (i : Nat) (p : ParcelRecord) : State :=
  match s.ring.consignment with
  | none => s.refuseAlone i
  | some c =>
    let members := c.members ++ [i]
    if !c.matchedBy p then s.refuseConsignment members .consignmentOrder .consignmentOrder
    else ((s.linkMembers members 1 members).closeConsignment).rateConsignment t members c.service

/-- A screen record is checked, then applied or rejected, in one event (R51 to R54). -/
def State.takeScreen (s : State) (i : Nat) (r : ScreenRecord) : State :=
  match checkScreen r.body with
  | .ok sc => { s.completeScreen i .applied with screen := some sc }
  | .error why => s.completeScreen i (.rejected why)

/-- A record taken at the rate position, by its kind and piece mark (R62 to R66). -/
def State.takeRecord (s : State) (t : Tariff) (i : Nat) (r : Record) : State :=
  match r with
  | .screen r => s.endOpenConsignment.takeScreen i r
  | .parcel p =>
    match p.pieceMark with
    | 1 => s.endOpenConsignment.openConsignment i p
    | 2 => s.takeMiddle i p
    | 3 => s.takeLast t i p
    | _ => s.endOpenConsignment.rateAlone t i p

/-- The rate position advances by one and the pending count falls by one (R61). -/
def State.advanceRate (s : State) : State :=
  { s with ring.rate := nextPosition s.ring.rate, ring.pendingCount := s.ring.pendingCount - 1 }

/-- The rate position acts on its slot: a QUEUED record is taken, a DONE or EMPTY slot passed unchanged (R61). -/
def State.rateAct (s : State) (t : Tariff) : State :=
  match (s.slot s.ring.rate).tag, (s.slot s.ring.rate).record with
  | .queued, some r =>
    (({ s with ring.takings := s.ring.takings + 1 }).takeRecord t s.ring.rate r).advanceRate
  | _, _ => s.advanceRate

/-! ## Commands on slots -/

/-- The members of the consignment a slot belongs to, or the slot alone (R57). -/
def Slot.membersOf (x : Slot) (i : Nat) : List Nat :=
  match x.link with
  | some l => l.members
  | none => [i]

/-- Slots emptied by COLLECT: a DONE slot becomes EMPTY, the members of one consignment being DONE together (R58, R73). -/
def State.emptySlots (s : State) (is : List Nat) : State :=
  is.foldl (fun s i => s.updateSlot i (fun x => if x.tag = .complete then Slot.vacant else x)) s

/-- What COLLECT of a DONE slot returns: every member's label record in ring order, or the screen result (R73). -/
def State.collected (s : State) (i : Nat) : ResponseBody :=
  match (s.slot i).screenResult with
  | some r => .screen r
  | none => .labels (((s.slot i).membersOf i).filterMap (fun j => (s.slot j).label))

/-- The outcome and reason that PEEK shows (R74; log entry 25). -/
def Slot.viewOutcome (x : Slot) : ViewOutcome × Option Reason :=
  if x.tag ≠ .complete then (.notDone, none)
  else
    match x.screenResult, x.label with
    | some r, _ =>
      match r.outcome with
      | .applied => (.applied, none)
      | .rejected _ => (.rejected, none)
      | .withdrawn => (.refused, some .withdrawn)
    | none, some l =>
      match l.refusal with
      | some why => (.refused, some why)
      | none => (.labelled, none)
    | none, none => (.notDone, none)

/-- The record kind code and terminal tag of a slot. -/
def Slot.kindAndTag (x : Slot) : Option Nat × Nat :=
  match x.record with
  | some (.parcel p) => (some 0, p.terminalTag)
  | some (.screen r) => (some 1, r.terminalTag)
  | none => (none, 0)

/-- The member count: the open consignment's so far when GROUPED, else the link's (R74). -/
def State.memberCount (s : State) (x : Slot) : Nat :=
  match x.link with
  | none => 0
  | some l =>
    if x.tag = .grouped then
      match s.ring.consignment with
      | some c => c.members.length
      | none => l.members.length
    else l.members.length

/-- The view of a slot (R74). -/
def State.slotView (s : State) (i : Nat) : SlotView where
  tag := (s.slot i).tag
  kind := (s.slot i).kindAndTag.1
  terminalTag := (s.slot i).kindAndTag.2
  pieceIndex := match (s.slot i).link with | some l => l.piece | none => 0
  memberCount := s.memberCount (s.slot i)
  outcome := (s.slot i).viewOutcome.1
  reason := (s.slot i).viewOutcome.2

/-- WITHDRAW of a QUEUED slot completes that slot alone (R75). -/
def State.withdrawQueued (s : State) (i : Nat) : State :=
  ((s.completeParcel i none (.refused .withdrawn)).completeScreen i .withdrawn).raise .withdrawn

/-- WITHDRAW of a GROUPED slot withdraws the open consignment (R76). -/
def State.withdrawGrouped (s : State) : State :=
  match s.ring.consignment with
  | some c => s.refuseConsignment c.members .withdrawn .withdrawn
  | none => s

/-- A waiting list without the requests of a slot (R77). -/
def dropMember (i : Nat) (qs : List Request) : List Request := qs.filter (fun q => !q.members.contains i)

/-- The slot's request taken off the waiting list it stands on (R77). -/
def State.dropRequest (s : State) (i : Nat) : State :=
  { s with
    home := s.home.map (fun r => { r with waiting := dropMember i r.waiting })
    table := s.table.map (fun e =>
      { e with
        waiting := dropMember i e.waiting
        incoming := e.incoming.map (fun c => { c with waiting := dropMember i c.waiting }) }) }

/-- WITHDRAW of a SEEKING slot withdraws its parcel or its whole consignment (R77). -/
def State.withdrawSeeking (s : State) (i : Nat) : State :=
  ((s.dropRequest i).refuseSeeking ((s.slot i).membersOf i) none .withdrawn).raise .withdrawn

end Sys2Proof.Machine
end

