-- ==== Sys2Proof/Machine/Operands.lean ====
section
/-! DEFINITION. How the operands of a terminal command are judged: availability by station state, the checks of R173, the
configuration record (10_terminal_port_and_station_start_up.md, R173, R175, R176; 12, R183). -/

namespace Sys2Proof.Machine

/-- The commands of R175, RESET by its argument. -/
inductive PortCommand where
  | configure | submit | collect | peek | withdraw | status | clearSummary | lotView | leave | resetWarm | resetFull
  deriving DecidableEq, Repr

/-- The table of R175: taken, or answered BUSY (check 2) or STATE (check 3). -/
def availability (c : PortCommand) (st : StationState) : Option ResponseCode :=
  match st with
  | .loading => match c with | .status => none | _ => some .busy
  | .unconfigured =>
    match c with
    | .submit | .lotView | .leave | .resetWarm => some .state
    | _ => none
  | .ready => match c with | .configure => some .state | _ => none
  | .tariffFault =>
    match c with
    | .configure | .submit | .lotView | .leave => some .state
    | _ => none
  | .leaving | .serving =>
    match c with
    | .configure | .submit | .leave => some .state
    | _ => none

/-! ## Responses -/

/-- OK with a body. -/
def ok (b : ResponseBody) : Response := ⟨.ok, b⟩

/-- A response code with an empty body. OK with no value to return has one by R182; that FULL, NOT_READY, BUSY and STATE
have one too is log entry 40. -/
def plain (c : ResponseCode) : Response := ⟨c, .nothing⟩

/-- BAD_ARG naming the failing check of R173 and the failing field of R176, or 0 (R182). -/
def badArg (check field : Nat) : Response := ⟨.badArg, .failedCheck check field⟩

/-- The response frame of an exchange (R172). -/
def State.answer (s : State) (r : Response) : State := { s with response := some r }

/-- A command after check 1: while RSTN is low the port takes none and TDO carries the idle filler (R181); checks 2 and 3
by the station state (R173, R175); then the command's own part. -/
def State.exchange (s : State) (c : PortCommand) (action : State → State) : State :=
  if s.held then { s with response := none }
  else
    match availability c s.station with
    | some code => s.answer (plain code)
    | none => action s

/-- An event of the engine itself: while RSTN is low the engine is held, and nothing happens (R181). -/
def State.whenRunning (s : State) (action : State → State) : State := if s.held then s else action s

/-! ## The configuration record -/

/-- The fields of R176 in order, each with whether it lies in its values (R176, R183). -/
def configChecks (r : ConfigRecord) : List Bool :=
  [ 1 ≤ r.stationCount && r.stationCount ≤ 32,
    r.stationNumber ≤ 31 && r.stationNumber < r.stationCount,
    1 ≤ r.day && r.day ≤ 366,
    r.timeOfDay ≤ 1439,
    r.sequenceStart ≤ 99999,
    r.networkPrefix.length == 2 && r.networkPrefix.all isCapital,
    r.expectedEdition ≤ 65535,
    r.openingFlag ≤ 1,
    r.fetchTimeout == 0 || (100 ≤ r.fetchTimeout && r.fetchTimeout ≤ 1600 && r.fetchTimeout % 100 == 0),
    r.publishDelay ≤ 15,
    r.watchdog == 0 || (30 ≤ r.watchdog && r.watchdog ≤ 600 && r.watchdog % 10 == 0),
    r.maskClearing.toNat < 8 ]

/-- The order number of the first failing field (R176). -/
def failingField (r : ConfigRecord) : Option Nat := ((configChecks r).findIdx? (!·)).map (· + 1)

/-- A timer field of 0 gives its default (R176). -/
def orDefault (n default : Nat) : Nat := if n = 0 then default else n

/-- The record as stored, defaults included; a mask named for clearing is clear, any other set (R176, R177). -/
def configurationOf (r : ConfigRecord) : Configuration where
  stationCount := r.stationCount
  stationNumber := r.stationNumber
  day := r.day
  timeOfDay := r.timeOfDay
  sequenceStart := r.sequenceStart
  networkPrefix := r.networkPrefix
  expectedEdition := r.expectedEdition
  opening := r.openingFlag == 1
  fetchTimeout := orDefault r.fetchTimeout 400
  publishDelay := orDefault r.publishDelay 4
  watchdog := orDefault r.watchdog 180
  restrictedMask := !r.maskClearing.getLsbD 0
  overflowMask := !r.maskClearing.getLsbD 1
  noDispatchMask := !r.maskClearing.getLsbD 2

/-! ## Slot indices and flag codes -/

/-- A slot index from 0 to 7 (R173 check 4). -/
def withSlot (s : State) (i : Nat) (action : State → State) : State :=
  if i < Config.slotCount then action s else s.answer (badArg 4 0)

/-- A flag count of at most 16 and flag codes of at most 15 (R183). -/
def FlagsFit (f : FlagList) : Bool := f.count ≤ 16 && f.codes.all (· ≤ 15)

end Sys2Proof.Machine
end

