-- ==== Sys2Proof/Machine/HallLine.lean ====
section
/-! DEFINITION. The meanings of the timers' expiries and of what happens on the hall line: idle intervals, starts, wins,
arbitration, read-back, rejection, and each accepted frame (07 and 08). -/

namespace Sys2Proof.Machine

/-! ## Timers -/

/-- The fetch timer of one record expires (R130 to R132, R145). -/
def State.fetchExpiry (s : State) (r : RecordRef) : State :=
  match r with
  | .home lot => s.homeExpiry lot
  | .entry i => s.entryExpiry i

/-- A fetch timer expires (R130). -/
def execFetchTimerExpires (r : RecordRef) (s : State) : Host.Outcome State Fault Refusal :=
  .next (s.whenRunning (fun s => s.fetchExpiry r))

/-- The publish timer of an OWNED-MODIFIED entry expires: a NOTICE is queued when no frame is pending (R138). -/
def State.publishExpiry (s : State) (i : Nat) : State :=
  let e := s.entry i
  if e.publishTimer.isSome then
    let s1 := s.updateEntry i (fun e => { e with publishTimer := none })
    if e.state = .ownedModified then s1.queue (.entry i) .notice 0 else s1
  else s

/-- The publish timer expires (R138). -/
def execPublishTimerExpires (i : Nat) (s : State) : Host.Outcome State Fault Refusal :=
  .next (s.whenRunning (fun s => s.publishExpiry i))

/-- The fault timer expires: FAULTED is left for LISTEN, the pending set kept (R155). -/
def State.faultExpiry (s : State) : State :=
  if s.line.state = .faulted ∧ s.line.faultTimer.isSome then
    { s with line.state := .listen, line.faultTimer := none }
  else s

/-- The fault timer expires (R155). -/
def execFaultTimerExpires (s : State) : Host.Outcome State Fault Refusal := .next (s.whenRunning State.faultExpiry)

/-- The beacon timer expires in ACTIVE: a HELLO is queued unless one is pending, and the timer runs again from its
acceptance (R159). -/
def State.beaconExpiry (s : State) : State :=
  if s.line.state = .active ∧ s.line.beaconTimer.isSome then
    ({ s with line.beaconTimer := none }).queueHello
  else s

/-- The beacon timer expires (R159). -/
def execBeaconTimerExpires (s : State) : Host.Outcome State Fault Refusal := .next (s.whenRunning State.beaconExpiry)

/-- A station's absence timer expires: it becomes absent (R161). -/
def State.absenceExpiry (s : State) (station : Nat) : State :=
  { s with
    line.presence := s.line.presence.modify station (fun p => if p.absence.isSome then ⟨false, none⟩ else p) }

/-- An absence timer expires (R161). -/
def execAbsenceTimerExpires (station : Nat) (s : State) : Host.Outcome State Fault Refusal :=
  .next (s.whenRunning (fun s => s.absenceExpiry station))

/-! ## Access -/

/-- A station in LISTEN sees its first idle interval: JOINING, a HELLO queued unless one is pending (R158). -/
def State.seeIdle (s : State) : State :=
  if s.line.state = .listen then ({ s with line.state := .joining }).queueHello else s

/-- An idle interval is seen (R158). -/
def execIdleIntervalSeen (s : State) : Host.Outcome State Fault Refusal := .next (s.whenRunning State.seeIdle)

/-- At an idle interval the station chooses a pending frame and starts it (R149, R157). While a frame of its own is still
on the line there has been no idle interval since its slot, so nothing starts (R149; log entry 5). -/
def State.startFrame (s : State) : State :=
  match s.line.transmission, s.chooseFrame with
  | none, some (o, f) => { s with line.transmission := some ⟨o, f.kind, f.queuedAt, none⟩ }
  | _, _ => s

/-- A transmission starts (R149, R157). -/
def execTransmitStart (s : State) : Host.Outcome State Fault Refusal := .next (s.whenRunning State.startFrame)

/-- The frame in transmission wins the line: its body is formed from its record, or it is truncated when it has been
dropped or replaced since its start (R150). -/
def State.winLine (s : State) : State :=
  match s.line.transmission with
  | some t =>
    if t.formed.isSome then s
    else
      match s.stillOffered t with
      | some f => { s with line.transmission := some { t with formed := some ⟨s.own, s.formBody t.owner f⟩ } }
      | none => s.stopSending
  | none => s

/-- A frame wins the line (R150). -/
def execFrameWinsLine (s : State) : Host.Outcome State Fault Refusal := .next (s.whenRunning State.winLine)

/-- Arbitration is lost over the start bit and header byte: the station stops driving and the frame stays pending with
its queuing time; no attempt is counted (R150). -/
def State.loseArbitration (s : State) : State :=
  match s.line.transmission with
  | some t => if t.formed.isSome then s else s.stopSending
  | none => s

/-- Arbitration is lost (R150). -/
def execArbitrationLost (s : State) : Host.Outcome State Fault Refusal := .next (s.whenRunning State.loseArbitration)

/-- The sender drove dominant and read recessive: it stops, and the attempt has failed (R151, R154). Before the win, an
attempt whose frame has been dropped or replaced is not counted (R154; log entry 12). -/
def State.readbackFails (s : State) : State :=
  match s.line.transmission with
  | some t => if t.formed.isSome || (s.stillOffered t).isSome then s.failAttempt t else s.stopSending
  | none => s

/-- A read-back failure (R151). -/
def execReadbackFailure (s : State) : Host.Outcome State Fault Refusal := .next (s.whenRunning State.readbackFails)

/-- After the header the sender drove recessive and read dominant: it stops and enters DUPLICATE (R151, R156). -/
def State.readbackOther (s : State) : State :=
  match s.line.transmission with
  | some t => if t.formed.isSome then s.stopSending.enterDuplicate else s
  | none => s

/-- A read-back that finds a duplicate (R151, R156). -/
def execReadbackDuplicate (s : State) : Host.Outcome State Fault Refusal := .next (s.whenRunning State.readbackOther)

/-- A truncated frame: discarded with no acceptance slot, neither accepted nor rejected, and no counter counts it
(R152). -/
def execFrameTruncated (s : State) : Host.Outcome State Fault Refusal := .next s

/-- A rejected frame: every receiver counts it, the sender counts a failed attempt; this station drove the slot when it
found the frame faulty (R152 to R154). -/
def execFrameRejected (r : Reception) (s : State) : Host.Outcome State Fault Refusal :=
  .next (s.whenRunning (fun s => s.hearRejected (faulty r)))

/-! ## Accepted frames -/

/-- A HANDOVER whose queue count is above 31 is faulty at every receiver and rejected (R152; log entry 17); any other is
acted on (R126 to R129, R153, R187). -/
def State.acceptHandover (s : State) (sender : Nat) (b : HandoverBody) : State :=
  if 31 < b.queue.length then s.hearRejected true
  else
    s.acceptLotFrame ⟨sender, .handover b⟩
      (fun s' => s'.onHandover sender b (s.isOwnFrame ⟨sender, .handover b⟩))

/-- An accepted HANDOVER (R122, R126 to R129, R144, R145, R153, R187). -/
def execHandoverAccepted (sender : Nat) (b : HandoverBody) (s : State) : Host.Outcome State Fault Refusal :=
  .next (s.whenRunning (fun s => s.acceptHandover sender b))

/-- An accepted RECLAIM (R134 to R136, R153). -/
def execReclaimAccepted (sender lot : Nat) (figures : Figures) (s : State) : Host.Outcome State Fault Refusal :=
  .next (s.whenRunning (fun s =>
    s.acceptLotFrame ⟨sender, .reclaim lot figures⟩
      (fun s' => s'.onReclaim lot figures (s.isOwnFrame ⟨sender, .reclaim lot figures⟩))))

/-- An accepted TALLY (R114, R153). -/
def execTallyAccepted (sender lot : Nat) (figures : Figures) (s : State) : Host.Outcome State Fault Refusal :=
  .next (s.whenRunning (fun s =>
    s.acceptLotFrame ⟨sender, .tally lot figures⟩ (fun s' => s'.onTally lot figures)))

/-- An accepted FETCH (R123, R124, R153). -/
def execFetchAccepted (sender lot : Nat) (s : State) : Host.Outcome State Fault Refusal :=
  .next (s.whenRunning (fun s =>
    s.acceptLotFrame ⟨sender, .fetch lot⟩ (fun s' => s'.onFetch sender lot (s.isOwnFrame ⟨sender, .fetch lot⟩))))

/-- An accepted STALL (R133, R153). -/
def execStallAccepted (sender lot : Nat) (s : State) : Host.Outcome State Fault Refusal :=
  .next (s.whenRunning (fun s =>
    s.acceptLotFrame ⟨sender, .stall lot⟩ (fun s' => s'.onStall lot)))

/-- An accepted NOTICE (R139, R140, R153). -/
def execNoticeAccepted (sender lot : Nat) (figures : Figures) (s : State) : Host.Outcome State Fault Refusal :=
  .next (s.whenRunning (fun s =>
    s.acceptLotFrame ⟨sender, .notice lot figures⟩
      (fun s' => s'.onNotice lot figures (s.isOwnFrame ⟨sender, .notice lot figures⟩)
        (s.ownFramePending ⟨sender, .notice lot figures⟩))))

/-- The own HELLO takes JOINING to ACTIVE with the beacon timer at 20 s (R158); any other sets EditionMismatch when its
edition differs (R160). -/
def State.onHello (s : State) (edition : Nat) (mine : Bool) : State :=
  if mine then
    if s.line.state = .joining then
      { s with line.state := .active, line.beaconTimer := some Config.beaconTime }
    else s
  else if edition ≠ s.edition then s.raise .editionMismatch
  else s

/-- An accepted HELLO at a station that receives (R153, R158, R160). HL keeps it for itself. -/
def State.acceptHello (s : State) (f : HallFrame) (edition : Nat) : State :=
  if s.line.state = .off then s else (s.takeFrame f).onHello edition (s.isOwnFrame f)

/-- An accepted HELLO (R160). -/
def execHelloAccepted (sender edition : Nat) (serial : BitVec 32) (s : State) : Host.Outcome State Fault Refusal :=
  .next (s.whenRunning (fun s => s.acceptHello ⟨sender, .hello edition serial⟩ edition))

/-- An accepted frame of kind 7: presence and a duplicate number, no delivery (R153). -/
def execUnknownKindFrameAccepted (sender : Nat) (content : Bytes) (s : State) : Host.Outcome State Fault Refusal :=
  .next (s.whenRunning (fun s =>
    if s.line.state = .off then s else s.takeFrame ⟨sender, .unknown content⟩))

end Sys2Proof.Machine
end

