-- ==== Sys2Proof/Machine/Load.lean ====
section
/-! DEFINITION. The tariff load: header checks, section chain, section contents, completion and fault
(02_the_tariff_image.md; 12, R184, R185). -/

namespace Sys2Proof.Machine

/-! ## Reading the flash -/

/-- The byte at an address; one not listed reads FFH (log entry 6). -/
def readFlash (f : Flash) (a : Nat) : Byte :=
  match f.find? (fun c => c.1 == a) with
  | some c => c.2
  | none => 0xFF

/-- `n` bytes from an address. -/
def readBytes (f : Flash) (a n : Nat) : Bytes := (List.range n).map (fun i => readFlash f (a + i))

/-! ## Image header -/

/-- The image header (R29, R184). -/
structure ImageHeader where
  edition  : Nat
  mode     : RoundingMode
  firstDay : Nat
  lastDay  : Nat
  first    : Nat
  deriving DecidableEq, Repr

/-- The rounding mode that a code names (R184). -/
def modeOf (code : Nat) : Option RoundingMode :=
  match code with
  | 0 => some .halfUp
  | 1 => some .halfEven
  | 2 => some .up
  | 3 => some .down
  | _ => none

/-- The marker 43H 56H 32H 54H (R184). -/
def marker : Bytes := [0x43, 0x56, 0x32, 0x54]

/-- Checks 3 to 5 of R29 on a header whose mode code names a mode. -/
def checkDays (c : Configuration) (h : ImageHeader) : Except LoadFault ImageHeader :=
  if h.edition < 1 ∨ h.firstDay < 1 ∨ 366 < h.firstDay ∨ h.lastDay < 1 ∨ 366 < h.lastDay ∨ h.lastDay < h.firstDay then
    .error .badHeader
  else if c.expectedEdition ≠ 0 ∧ c.expectedEdition ≠ h.edition then .error .edition
  else if c.day < h.firstDay ∨ h.lastDay < c.day then .error .dayRange
  else .ok h

/-- The header bytes that the engine reads: bytes 13 to 15 are not read (R184; log entry 29). -/
def readHeaderBytes (bs : Bytes) : Bytes := bs.take 13

/-- The checks of R29 in order, on the header bytes. Check 1 is made on the bytes that are read, 0 to 12 (log entry
29). -/
def checkHeader (c : Configuration) (bs : Bytes) : Except LoadFault ImageHeader :=
  if (readHeaderBytes bs).all (· == 0xFF) || (readHeaderBytes bs).all (· == 0x00) then .error .flashSilent
  else if bs.take 4 != marker then .error .badMarker
  else
    match modeOf (field bs 6 1) with
    | none => .error .badHeader
    | some m => checkDays c ⟨field bs 4 2, m, field bs 7 2, field bs 9 2, field bs 11 2⟩

/-! ## Section chain -/

/-- A section taken into the walk: where it stands, and its header (R30). -/
structure ChainSection where
  offset : Nat
  kind   : Nat
  length : Nat
  next   : Nat
  crc    : Nat
  deriving DecidableEq, Repr

/-- The section header at an offset (R184). -/
def readSection (f : Flash) (o : Nat) : ChainSection :=
  let bs := readBytes f o 8
  ⟨o, field bs 0 1, field bs 1 2, field bs 3 2, field bs 5 2⟩

/-- In bounds: header past the image header, header and body within the image (R30, R184). -/
def ChainSection.inBounds (c : ChainSection) : Bool := 16 ≤ c.offset && c.offset + 8 + c.length ≤ Config.imageSize

/-- The walk from an offset: it ends at an out-of-bounds section, at the end mark, at the loop guard, or at the walk
limit (R31). -/
def walk (f : Flash) : Nat → Nat → List ChainSection
  | 0, _ => []
  | n + 1, o =>
    let c := readSection f o
    if !c.inBounds then []
    else if c.next ≤ o then [c]
    else c :: walk f n c.next

/-- The first section of a kind, in chain order (R32). -/
def firstOfKind (k : SectionKind) (chain : List ChainSection) : Option ChainSection :=
  chain.find? (fun c => c.kind == k.code)

/-- A section's body bytes. -/
def ChainSection.body (f : Flash) (c : ChainSection) : Bytes := readBytes f (c.offset + 8) c.length

/-- The CRC of the body matches the header's field (R30, R32). -/
def crcGood (c : ChainSection) (body : Bytes) : Bool := crc16 body == BitVec.ofNat 16 c.crc

/-! ## Section contents: each reader gives the decoded content of a consistent body, none otherwise -/

/-- A zone entry from its two bytes (R34, R185). -/
def readZone (z r : Byte) : Option ZoneEntry :=
  if z.toNat % 16 = 15 then some ⟨none, r.toNat, z.getLsbD 7⟩
  else if z.toNat % 16 ≤ 9 ∧ r.toNat ≤ 239 then some ⟨some (z.toNat % 16), r.toNat, z.getLsbD 7⟩
  else none

/-- Zone entries in prefix order (R34). -/
def readZones : Bytes → Option (List ZoneEntry)
  | [] => some []
  | [_] => none
  | z :: r :: bs =>
    match readZone z r, readZones bs with
    | some e, some es => some (e :: es)
    | _, _ => none

/-- The ZONES body: 1,000 entries (R34). -/
def zonesOf (bs : Bytes) : Option (List ZoneEntry) := if bs.length = 2000 then readZones bs else none

/-- `n` numbers of `w` bytes each. -/
def readNumbers (w : Nat) : Nat → Bytes → List Nat
  | 0, _ => []
  | n + 1, bs => ofBytes (bs.take w) :: readNumbers w n (bs.drop w)

/-- Strictly ascending. -/
def ascending : List Nat → Bool
  | a :: b :: rest => a < b && ascending (b :: rest)
  | _ => true

/-- A list cut into rows of ten charges. -/
def rowsOfTen : Nat → List Nat → List (List Nat)
  | 0, _ => []
  | k + 1, ns => ns.take 10 :: rowsOfTen k (ns.drop 10)

/-- No surcharge row joined yet. -/
def noSurcharges : Surcharges := ⟨0, 0, 0, 0, 0, 0⟩

/-- The ranges of R35 on a decoded rate section. -/
def rateInRange (r : RateSection) : Bool :=
  r.bands.all (fun b => 1 ≤ b.bound && b.bound ≤ 70000) && ascending (r.bands.map (·.bound)) &&
    (1 ≤ r.excessStep && r.excessStep ≤ 10000) &&
    (r.divisor == 0 || (1000 ≤ r.divisor && r.divisor ≤ 10000)) &&
    r.fuel ≤ 5000 && r.tax ≤ 3000 && r.freeThreshold ≤ 5000000 && r.insuranceRate ≤ 1000

/-- A RATES body (R35, R184, R185). -/
def rateOf (bs : Bytes) : Option RateSection :=
  let k := field bs 0 1
  if k < 1 ∨ 16 < k ∨ bs.length ≠ 38 + 24 * k then none
  else
    let tail := bs.drop (1 + 24 * k)
    let r : RateSection := {
      bands := ((readNumbers 4 k (bs.drop 1)).zip (rowsOfTen k (readNumbers 2 (10 * k) (bs.drop (1 + 4 * k))))).map
        (fun b => ⟨b.1, b.2⟩)
      excessStep := field tail 0 2
      increments := readNumbers 2 10 (tail.drop 2)
      divisor := field tail 22 2
      fuel := field tail 24 2
      tax := field tail 26 2
      insuranceAllowed := field tail 28 1 == 1
      freeThreshold := field tail 29 4
      insuranceRate := field tail 33 2
      minimumPremium := field tail 35 2
      surcharges := noSurcharges }
    if rateInRange r && field tail 28 1 ≤ 1 then some r else none

/-- One SURCHARGES row from its six amounts (R36). -/
def surchargeRow (ns : List Nat) : Surcharges :=
  ⟨ns.getD 0 0, ns.getD 1 0, ns.getD 2 0, ns.getD 3 0, ns.getD 4 0, ns.getD 5 0⟩

/-- The SURCHARGES body: three rows (R36). -/
def surchargesOf (bs : Bytes) : Option (Surcharges × Surcharges × Surcharges) :=
  if bs.length = 36 then
    some (surchargeRow (readNumbers 2 6 bs), surchargeRow (readNumbers 2 6 (bs.drop 12)),
      surchargeRow (readNumbers 2 6 (bs.drop 24)))
  else none

/-- The DISCOUNTS body: d(2) to d(8) (R37). -/
def discountsOf (bs : Bytes) : Option (List Nat) :=
  if bs.length = 14 ∧ (readNumbers 2 7 bs).all (· ≤ 5000) then some (readNumbers 2 7 bs) else none

/-- A departure from its twelve bytes (R39, R184, R185). The store holds the weight in grams. -/
def readDeparture (route index : Nat) (bs : Bytes) : Option Departure :=
  let mask := (bs.getD 2 0)
  let kg := field bs 3 2
  if field bs 0 2 ≤ 1439 ∧ 1 ≤ mask.toNat ∧ mask.toNat ≤ 7 ∧ 1 ≤ kg ∧ kg ≤ 30000 ∧ 1 ≤ field bs 5 4 ∧
      field bs 5 4 ≤ 100000 ∧ 1 ≤ field bs 9 2 ∧ field bs 9 2 ≤ 4000 ∧ field bs 11 1 ≤ 31 then
    some ⟨route, index, field bs 0 2, ⟨mask.getLsbD 0, mask.getLsbD 1, mask.getLsbD 2⟩,
      ⟨kg * 1000, field bs 5 4, field bs 9 2⟩, field bs 11 1⟩
  else none

/-- `d` departures of a route from its index `i`, and the bytes after them. -/
def readDepartures (route : Nat) : Nat → Nat → Bytes → Option (List Departure × Bytes)
  | _, 0, bs => some ([], bs)
  | i, d + 1, bs =>
    if bs.length < 12 then none
    else
      match readDeparture route i (bs.take 12), readDepartures route (i + 1) d (bs.drop 12) with
      | some e, some (es, rest) => some (e :: es, rest)
      | _, _ => none

/-- `n` route entries, route numbers above `below` and ascending (R38). -/
def readRoutes : Nat → Nat → Bytes → Option (List Departure × Bytes)
  | _, 0, bs => some ([], bs)
  | least, n + 1, bs =>
    if bs.length < 2 then none
    else
      let route := field bs 0 1
      let d := field bs 1 1
      if route < least ∨ 239 < route ∨ d < 1 ∨ 6 < d then none
      else
        match readDepartures route 0 d (bs.drop 2) with
        | none => none
        | some (es, rest) =>
          if !ascending (es.map (·.cutOff)) then none
          else
            match readRoutes (route + 1) n rest with
            | some (more, rest') => some (es ++ more, rest')
            | none => none

/-- The DISPATCH PLAN body (R38). -/
def planOfBody (bs : Bytes) : Option (List Departure) :=
  let n := field bs 0 1
  if bs = [] ∨ n < 1 ∨ 240 < n then none
  else
    match readRoutes 0 n (bs.drop 1) with
    | some (es, []) => if es.length ≤ 1024 then some es else none
    | _ => none

/-- Home-station substitution (R40). -/
def substituteHome (count : Nat) (d : Departure) : Departure :=
  if d.home < count then d else { d with home := (d.route * 8 + d.index) % count }

/-! ## The whole load -/

/-- The three checks of R32 on one required kind. -/
def checkedSection {α : Type} (f : Flash) (chain : List ChainSection) (k : SectionKind) (read : Bytes → Option α) :
    Except LoadFault α :=
  match firstOfKind k chain with
  | none => .error (.missing k)
  | some c =>
    let body := c.body f
    if !crcGood c body then .error (.badCrc k)
    else
      match read body with
      | none => .error (.inconsistent k)
      | some a => .ok a

/-- SCREEN DEFAULT: taken when it is present, its CRC good and its body valid; an empty exact list otherwise (R33).
A body of another length than 179 is discarded too (R184; log entry 30). -/
def defaultScreenOf (f : Flash) (chain : List ChainSection) : Screen :=
  match checkedSection f chain .screenDefault (fun bs => if bs.length = 179 then some bs else none) with
  | .error _ => Screen.openScreen
  | .ok bs =>
    match checkScreen (readScreenBody bs) with
    | .ok sc => sc
    | .error _ => Screen.openScreen

/-- The required kinds in the order of R32, then SCREEN DEFAULT, on the sections of the walk. -/
def loadSections (f : Flash) (c : Configuration) (h : ImageHeader) (chain : List ChainSection) :
    Except LoadFault Tariff := do
  let zones ← checkedSection f chain .zones zonesOf
  let economy ← checkedSection f chain .ratesEconomy rateOf
  let standard ← checkedSection f chain .ratesStandard rateOf
  let priority ← checkedSection f chain .ratesPriority rateOf
  let surcharges ← checkedSection f chain .surcharges surchargesOf
  let discounts ← checkedSection f chain .discounts discountsOf
  let plan ← checkedSection f chain .dispatchPlan planOfBody
  return {
    mode := h.mode, edition := h.edition, firstDay := h.firstDay, lastDay := h.lastDay, zones := zones
    economy := { economy with surcharges := surcharges.1 }
    standard := { standard with surcharges := surcharges.2.1 }
    priority := { priority with surcharges := surcharges.2.2 }
    discounts := discounts
    plan := plan.map (substituteHome c.stationCount)
    defaultScreen := defaultScreenOf f chain }

/-- The load of an image: its fault code, or the decoded image (R28 to R40). -/
def loadImage (c : Configuration) (f : Flash) : Except LoadFault Tariff := do
  let h ← checkHeader c (readBytes f 0 16)
  loadSections f c h (walk f Config.walkLimit h.first)

/-! ## The end of the load -/

/-- A home record as the home store is built (R100). -/
def freshHome (opening : Bool) (d : Departure) : HomeRecord where
  lot := d.route * 8 + d.index
  state := if opening then .atHome else .unknown
  figures := if opening then d.capacity else .zero
  lastSeen := none
  reclaimed := false
  queue := []
  handingOver := false
  attempts := 0
  fetchTimer := none
  frame := none
  waiting := []

/-- The home store: one record per plan lot homed here, in lot ID order, which is plan order (R38, R100). -/
def buildHome (c : Configuration) (t : Tariff) : List HomeRecord :=
  (t.plan.filter (fun d => d.home == c.stationNumber)).map (freshHome c.opening)

/-- Every home record tested for TALLY at the completion of the load (R100, R113). That they are taken in lot ID order is the
model's choice (log entry 39). -/
def State.testAllTallies (s : State) : State :=
  (s.home.map (·.lot)).foldl (fun s lot => s.testTally (.home lot)) s

/-- The completion of the load (R41, R49, R100, R112). -/
def State.completeLoad (s : State) (t : Tariff) : State :=
  ({ s with
    store := .loaded t
    screen := some t.defaultScreen
    home := buildHome s.config t
    line.state := .listen
    station := .ready }).testAllTallies

/-- The fault of the load (R42). -/
def State.faultLoad (s : State) (c : LoadFault) : State :=
  ({ s with store := .faulted c, station := .tariffFault }).raise .tariffFault

end Sys2Proof.Machine
end

