-- ==== Sys2Proof/Machine/Resets.lean ====
section
/-! DEFINITION. The three resets on every block (R43, R55, R80, R95, R119, R162, R171, R180, R181). -/

namespace Sys2Proof.Machine

/-- A home record under a warm reset, before it queues afresh (R119). -/
def HomeRecord.warm (r : HomeRecord) : HomeRecord :=
  match r.state with
  | .askingHome =>
    { r with
      state := if r.lastSeen.isSome then .away else .unknown
      attempts := 0, fetchTimer := none, frame := none, handingOver := false, waiting := [] }
  | .atHome | .away | .unknown | .ended => { r with frame := none, handingOver := false, waiting := [] }

/-- An AT_HOME record queues afresh: a HANDOVER to its queue's head, otherwise a TALLY when it is due (R119). -/
def State.requeueHome (s : State) (lot : Nat) : State :=
  match s.findHome lot with
  | none => s
  | some r =>
    if r.holds then
      match r.queue with
      | head :: _ => s.queue (.home lot) .handover head
      | [] => s.testTally (.home lot)
    else s

/-- The line state after a warm reset (R162). -/
def LineState.warm : LineState → LineState
  | .off => .off
  | .duplicate => .duplicate
  | .listen | .joining | .active | .faulted => .listen

/-- The line controller under a warm reset: a frame on the line cut off, pending HELLO, attempts, timers and presence
cleared (R162). -/
def LineController.warm (l : LineController) : LineController :=
  { LineController.cleared with state := l.state.warm, droveSlot := l.droveSlot }

/-- The screen after a warm reset: the store's default again, none while the store is not LOADED (R55). -/
def State.defaultScreen (s : State) : Option Screen := s.tariff.map (·.defaultScreen)

/-- A warm reset (R180): ring emptied, lot table freed, pending and presence sets emptied, the default screen restored;
configuration, store, home store, clock, sequence counter, summary and counters kept. The home records queue afresh in
lot ID order (log entry 34). -/
def State.warmReset (s : State) : State :=
  let s1 : State := { s with
    ring := Ring.cleared
    table := List.replicate Config.entryCount LotEntry.cleared
    home := s.home.map HomeRecord.warm
    line := s.line.warm
    screen := s.defaultScreen
    station := if s.station = .tariffFault then .tariffFault else .ready }
  (s1.home.map (·.lot)).foldl State.requeueHome s1

/-- A full or power-on reset on the engine's state (R180, R181): every block at its reset value. The host's queue of
commands is no part of the engine. -/
def State.fullReset (s : State) : State := { State.reset with pending := s.pending }

end Sys2Proof.Machine
end

