-- ==== Sys2Proof/Machine/Station.lean ====
section
/-! DEFINITION. The meanings of the resets by pin, the end of the load, the ring's events and the station clock (R41, R42,
R61, R70, R96, R112, R181). -/

namespace Sys2Proof.Machine

/-- A power-on reset, at power-up and at every fall of RSTN, in any state, LOADING included; the engine is then held
(R181). -/
def execPowerOnReset (s : State) : Host.Outcome State Fault Refusal := .next { s.fullReset with held := true }

/-- The rise of RSTN releases the engine (R181). -/
def execRstnRise (s : State) : Host.Outcome State Fault Refusal := .next { s with held := false }

/-- The load of a LOADING station completes when every check passes (R41); an image that fails one does not complete
(log entry 6). -/
def State.endLoad (s : State) (f : Flash) : State :=
  match s.station, loadImage s.config f with
  | .loading, .ok t => s.completeLoad t
  | _, _ => s

/-- The load completes (R41). -/
def execLoadCompletes (f : Flash) (s : State) : Host.Outcome State Fault Refusal :=
  .next (s.whenRunning (fun s => s.endLoad f))

/-- The load of a LOADING station faults at the first check that fails (R42); an image that passes all does not fault
(log entry 6). -/
def State.failLoad (s : State) (f : Flash) : State :=
  match s.station, loadImage s.config f with
  | .loading, .error c => s.faultLoad c
  | _, _ => s

/-- The load faults (R42). -/
def execLoadFaults (f : Flash) (s : State) : Host.Outcome State Fault Refusal :=
  .next (s.whenRunning (fun s => s.failLoad f))

/-- The rate position acts while the station is READY and the pending count above 0 (R61). -/
def State.ratePosition (s : State) : State :=
  match s.station, s.tariff with
  | .ready, some t => if 0 < s.ring.pendingCount then s.rateAct t else s
  | _, _ => s

/-- The rate position takes or passes its slot (R61 to R67, R1). -/
def execRatePositionActs (s : State) : Host.Outcome State Fault Refusal := .next (s.whenRunning State.ratePosition)

/-- The watchdog of the open consignment expires (R70). -/
def State.watchdogExpiry (s : State) : State :=
  match s.ring.watchdog, s.ring.consignment with
  | some _, some c => s.refuseConsignment c.members .consignmentIncomplete .consignmentIncomplete
  | _, _ => s

/-- The watchdog expires (R70). -/
def execWatchdogExpires (s : State) : Host.Outcome State Fault Refusal := .next (s.whenRunning State.watchdogExpiry)

/-- The lots of the plan whose cut-off is a minute, in lot ID order (R112). -/
def State.lotsCutOffAt (s : State) (minute : Nat) : List Nat :=
  match s.tariff with
  | some t => (t.plan.filter (fun d => d.cutOff == minute)).map (·.lot)
  | none => []

/-- The clock advances by one minute, holding at 2,879; every lot whose cut-off is the new minute reaches it, in lot ID
order (R96, R112). A stopped clock does not advance. -/
def State.advanceClock (s : State) : State :=
  match s.clock with
  | none => s
  | some c =>
    if c.minute < Config.clockTop then
      (s.lotsCutOffAt (c.minute + 1)).foldl State.reachCutOff { s with clock := some ⟨c.minute + 1, 0⟩ }
    else s

/-- The station clock advances (R96). -/
def execClockAdvance (s : State) : Host.Outcome State Fault Refusal := .next (s.whenRunning State.advanceClock)

end Sys2Proof.Machine
end

