-- ==== Sys2Proof/Machine/Views.lean ====
section
/-! DEFINITION. What STATUS and LOT VIEW return, and the bytes of a response frame (R118, R178; 12, R182). -/

namespace Sys2Proof.Machine

/-- The line receives in every state but OFF (R147). -/
def LineState.receives (l : LineState) : Bool := l != .off

/-- The body of STATUS as the state stands (R178). -/
def State.statusView (s : State) : StatusView where
  station := s.station
  line := s.line.state
  stationNumber := s.configuration.map (·.stationNumber)
  stationCount := s.configuration.map (·.stationCount)
  clock := s.clock.map (·.minute)
  sequence := s.sequence
  edition := s.edition
  fault := match s.store with | .faulted c => some c | _ => none
  summary := s.unit.summary
  labelsIssued := s.unit.labelsIssued
  recordsRefused := s.unit.recordsRefused
  framesRejected := s.unit.framesRejected
  presence := s.line.presence.map (fun p => p.present && s.line.state.receives)
  tags := s.ring.slots.map (fun x => if s.station = .ready then x.tag else .empty)

/-- No record for the lot (R118). -/
def LotView.nothing : LotView := ⟨.nothing, false, false, false, false, none, 0, 0⟩

/-- A home record's figures as LOT VIEW shows them (R118). -/
def HomeRecord.shown (r : HomeRecord) : Option Figures :=
  match r.state with
  | .atHome | .ended => some r.figures
  | .away | .askingHome => r.lastSeen
  | .unknown => none

/-- The lot view of a home record. Its handing over is shown in bit 0 of the indications as an entry's is (log entry
32). -/
def HomeRecord.view (r : HomeRecord) : LotView :=
  ⟨.home r.state, r.handingOver, false, r.reclaimed, false, r.shown, r.queue.length, r.waiting.length⟩

/-- The lot view of an entry by its lot ID. -/
def State.entryView (s : State) (e : LotEntry) : LotView :=
  ⟨.entry e.state, e.handingOver, e.castout, e.reclaimed, s.unreachableNow e, e.figures, e.queue.length,
    e.waiting.length⟩

/-- The lot view of an incoming lot: ASKING with no figures, its own waiting list (R118). -/
def Incoming.view (c : Incoming) : LotView := ⟨.incoming, false, false, false, false, none, 0, c.waiting.length⟩

/-- The record this station holds for a lot; a lot ID of no plan lot returns NONE (R118). -/
def State.lotView (s : State) (lot : Nat) : LotView :=
  match s.planLot lot with
  | none => LotView.nothing
  | some _ =>
    match s.findHome lot with
    | some r => r.view
    | none =>
      match s.entryOf lot with
      | some i => s.entryView (s.entry i)
      | none =>
        match s.incomingOf lot with
        | some i => match (s.entry i).incoming with | some c => c.view | none => LotView.nothing
        | none => LotView.nothing

/-! ## Bytes -/

/-- The no-value code of a numeric field: FFH in every byte. -/
def orNoValue (w : Nat) (n : Option Nat) : Bytes :=
  match n with
  | some n => toBytes w n
  | none => List.replicate w 0xFF

/-- The zone byte of a label record: 0 to 9, 0FH NONE (R182). -/
def zoneCode (z : Option Nat) : Nat := z.getD 15

/-- The marks byte: direction in bits 0 and 1, then Inexact, Clamped, Inspect, Dispatch pending, Reclaimed lot (R182). -/
def marksByte (l : LabelRecord) : Byte :=
  BitVec.ofNat 8 (l.direction.code + (if l.inexact then 4 else 0) + (if l.clamped then 8 else 0) +
    (if l.inspect then 16 else 0) + (if l.dispatchPending then 32 else 0) + (if l.reclaimedLot then 64 else 0))

/-- A reason byte. -/
def reasonCode (r : Option Reason) : Nat :=
  match r with
  | some r => r.code
  | none => 0

/-- The 73 bytes of a label record (R182). -/
def labelBytes (l : LabelRecord) : Bytes :=
  toBytes 2 l.terminalTag ++
    toBytes 1 (if l.refusal.isNone then ViewOutcome.labelled.code else ViewOutcome.refused.code) ++
    toBytes 1 (reasonCode l.refusal) ++ toBytes 2 l.errorSummary.toNat ++ l.trackingNumber ++ l.consignmentNumber ++
    toBytes 1 l.pieceIndex ++ toBytes 4 l.charge ++ toBytes 4 l.base ++ toBytes 4 l.fuel ++ toBytes 4 l.fixed ++
    toBytes 4 l.insurance ++ toBytes 4 l.discount ++ toBytes 4 l.tax ++ toBytes 4 l.chargeableWeight ++
    toBytes 1 (zoneCode l.zone) ++ toBytes 1 l.route ++ toBytes 1 l.departure ++ toBytes 2 l.cutOff ++
    toBytes 2 l.lot ++ [marksByte l]

/-- The reject reason byte and entry index byte of a screen result (R182). -/
def RejectReason.codes : RejectReason → Nat × Nat
  | .badKind => (1, 0) | .badCount => (2, 0) | .badLength i => (3, i) | .badDigit i => (4, i)

/-- The five bytes of a screen result (R182). A reject reason or an entry index that the result does not have is 0 (log
entry 31). -/
def screenResultBytes (r : ScreenResult) : Bytes :=
  toBytes 2 r.terminalTag ++
    (match r.outcome with
     | .applied => toBytes 1 ViewOutcome.applied.code ++ [0, 0]
     | .rejected why => toBytes 1 ViewOutcome.rejected.code ++ toBytes 1 why.codes.1 ++ toBytes 1 why.codes.2
     | .withdrawn => toBytes 1 ViewOutcome.refused.code ++ [0, 0])

/-- The eight bytes of a slot view; the record kind of an EMPTY slot is FFH (R182, R183). -/
def slotViewBytes (v : SlotView) : Bytes :=
  toBytes 1 v.tag.code ++ orNoValue 1 v.kind ++ toBytes 2 v.terminalTag ++ toBytes 1 v.pieceIndex ++
    toBytes 1 v.memberCount ++ toBytes 1 v.outcome.code ++ toBytes 1 (reasonCode v.reason)

/-- The present flags as a set of 32, bit s for station s (R182). -/
def presenceBits (ps : List Bool) : Nat := ps.foldr (fun p n => (if p then 1 else 0) + 2 * n) 0

/-- The fault code and its section kind. -/
def faultCodes (f : Option LoadFault) : Nat × Nat :=
  match f with
  | some c => c.code
  | none => (0, 0)

/-- The 34 bytes of STATUS (R182). -/
def statusBytes (v : StatusView) : Bytes :=
  toBytes 1 v.station.code ++ toBytes 1 v.line.code ++ orNoValue 1 v.stationNumber ++ orNoValue 1 v.stationCount ++
    orNoValue 2 v.clock ++ orNoValue 4 v.sequence ++ toBytes 2 v.edition ++ toBytes 1 (faultCodes v.fault).1 ++
    toBytes 1 (faultCodes v.fault).2 ++ toBytes 2 v.summary.toNat ++ toBytes 2 v.labelsIssued ++
    toBytes 2 v.recordsRefused ++ toBytes 2 v.framesRejected ++ toBytes 4 (presenceBits v.presence) ++
    v.tags.flatMap (fun t => toBytes 1 t.code)

/-- The source and state bytes of a lot view; an incoming lot shows ASKING (R118, R182). -/
def ViewSource.codes : ViewSource → Nat × Nat
  | .nothing => (0, 0)
  | .home s => (1, s.code)
  | .entry s => (2, s.code)
  | .incoming => (3, EntryState.asking.code)

/-- The indications byte of a lot view (R182). -/
def indications (v : LotView) : Byte :=
  BitVec.ofNat 8 ((if v.handingOver then 1 else 0) + (if v.castout then 2 else 0) + (if v.reclaimed then 4 else 0) +
    (if v.unreachable then 8 else 0) + (if v.figures.isSome then 16 else 0))

/-- The 15 bytes of a lot view: source, state, indications, figures, queue length, requests waiting (R182). -/
def lotViewBytes (v : LotView) : Bytes :=
  let f := v.figures.getD .zero
  toBytes 1 v.source.codes.1 ++ toBytes 1 v.source.codes.2 ++ [indications v] ++ toBytes 4 f.weight ++
    toBytes 4 f.litres ++ toBytes 2 f.pieces ++ toBytes 1 v.queueLength ++ toBytes 1 v.waiting

/-- The bytes of a response body; a COLLECT body begins with record kind and count (R182), and the count of a screen result
is 1 (log entry 38). -/
def bodyResponse : ResponseBody → Bytes
  | .nothing => []
  | .failedCheck c f => toBytes 1 c ++ toBytes 1 f
  | .slotIndex n => toBytes 1 n
  | .labels ls => [0, BitVec.ofNat 8 ls.length] ++ ls.flatMap labelBytes
  | .screen r => [1, 1] ++ screenResultBytes r
  | .slot v => slotViewBytes v
  | .status v => statusBytes v
  | .summary w => toBytes 2 w.toNat
  | .lot v => lotViewBytes v

/-- A response frame: code, body length, body (R182). -/
def responseBytes (r : Response) : Bytes :=
  toBytes 1 r.code.code ++ toBytes 2 (bodyResponse r.body).length ++ bodyResponse r.body

/-- The idle filler of TDO (12, Formats). -/
def idleFiller : Byte := 0xFF

/-- The response bytes that are due in the select period of the last command: none while RSTN is low (R172, R181). -/
def State.dueBytes (s : State) : Bytes :=
  match s.held, s.response with
  | false, some r => responseBytes r
  | _, _ => []

/-- The byte number `k` that TDO carries after the last byte of the command frame: the response frame, then the idle
filler, and the idle filler alone when no response is due (R172, R181, R183). -/
def State.tdoByte (s : State) (k : Nat) : Byte := s.dueBytes.getD k idleFiller

/-- What TDO carries in a select period in which the terminal clocks `sent` command bytes and then `n` bytes more: the
idle filler while the command comes in, then the bytes of `State.tdoByte` (R172, R183). -/
def State.tdo (s : State) (sent n : Nat) : Bytes := List.replicate sent idleFiller ++ (List.range n).map s.tdoByte

end Sys2Proof.Machine
end

