-- ==== Sys2Proof/Machine/Terminal.lean ====
section
/-! DEFINITION. The meanings of the terminal commands (10_terminal_port_and_station_start_up.md; R59, R73 to R78, R93,
R118, R144). -/

namespace Sys2Proof.Machine

/-! ## CONFIGURE -/

/-- An accepted CONFIGURE (R177): record, clock, sequence counter, lot table, LOADING. The masks, timers, prefix, day and
station number are the stored record's. -/
def State.accept (s : State) (c : Configuration) : State :=
  { s with
    configuration := some c
    clock := some ⟨c.timeOfDay, 0⟩
    sequence := some c.sequenceStart
    table := List.replicate Config.entryCount LotEntry.cleared
    station := .loading
    store := .loading }

/-- CONFIGURE where it is taken (R176, R177). -/
def State.configureTaken (s : State) (r : ConfigRecord) : State :=
  match failingField r with
  | some n => s.answer (badArg 4 n)
  | none => (s.accept (configurationOf r)).answer (ok .nothing)

/-- CONFIGURE (R173, R175 to R177, R28). -/
def execConfigure (r : ConfigRecord) (s : State) : Host.Outcome State Fault Refusal :=
  .next (s.exchange .configure (fun s => s.configureTaken r))

/-! ## Commands on the ring -/

/-- SUBMIT of a record of a known kind where it is taken (R59). -/
def State.submitRecord (s : State) (r : Record) : State :=
  if s.hasRoom then (s.place r).answer (ok (.slotIndex s.ring.put)) else s.answer (plain .full)

/-- SUBMIT where it is taken (R59, R60, R183). -/
def State.submitTaken (s : State) (r : Submission) : State :=
  match r with
  | .parcel p => s.submitRecord (.parcel p)
  | .screen r => s.submitRecord (.screen r)
  | .unknownKind _ => s.answer (badArg 4 0)

/-- SUBMIT (R59, R60, R173, R175). -/
def execSubmit (r : Submission) (s : State) : Host.Outcome State Fault Refusal :=
  .next (s.exchange .submit (fun s => s.submitTaken r))

/-- COLLECT of a slot in range (R73). -/
def State.collectSlot (s : State) (i : Nat) : State :=
  if (s.slot i).tag = .complete then (s.emptySlots ((s.slot i).membersOf i)).answer (ok (s.collected i))
  else s.answer (plain .notReady)

/-- COLLECT (R73, R173, R175). -/
def execCollect (i : Nat) (s : State) : Host.Outcome State Fault Refusal :=
  .next (s.exchange .collect (fun s => withSlot s i (fun s => s.collectSlot i)))

/-- PEEK (R74, R173, R175). -/
def execPeek (i : Nat) (s : State) : Host.Outcome State Fault Refusal :=
  .next (s.exchange .peek (fun s => withSlot s i (fun s => s.answer (ok (.slot (s.slotView i))))))

/-- WITHDRAW of a slot in range, by its tag (R75 to R78). -/
def State.withdrawSlot (s : State) (i : Nat) : State :=
  match (s.slot i).tag with
  | .queued => (s.withdrawQueued i).answer (ok .nothing)
  | .grouped => s.withdrawGrouped.answer (ok .nothing)
  | .seeking => (s.withdrawSeeking i).answer (ok .nothing)
  | .empty | .complete => s.answer (plain .state)

/-- WITHDRAW (R75 to R78, R173, R175). -/
def execWithdraw (i : Nat) (s : State) : Host.Outcome State Fault Refusal :=
  .next (s.exchange .withdraw (fun s => withSlot s i (fun s => s.withdrawSlot i)))

/-! ## Reading the station -/

/-- STATUS, taken in every station state (R178). -/
def execStatus (s : State) : Host.Outcome State Fault Refusal :=
  .next (s.exchange .status (fun s => s.answer (ok (.status s.statusView))))

/-- CLEAR where it is taken: the snapshot, the clearing and the response are one event (R93). -/
def State.clearTaken (s : State) (f : FlagList) : State :=
  if FlagsFit f then
    ({ s with unit.summary := clearCodes s.unit.summary f.codes }).answer (ok (.summary s.unit.summary))
  else s.answer (badArg 4 0)

/-- CLEAR (R93, R173, R175, R183). -/
def execClearSummary (f : FlagList) (s : State) : Host.Outcome State Fault Refusal :=
  .next (s.exchange .clearSummary (fun s => s.clearTaken f))

/-- LOT VIEW (R118, R173, R175). -/
def execLotView (lot : Nat) (s : State) : Host.Outcome State Fault Refusal :=
  .next (s.exchange .lotView (fun s => s.answer (ok (.lot (s.lotView lot)))))

/-! ## LEAVE and RESET -/

/-- The ring is empty when every slot is EMPTY (R56). -/
def Ring.isEmpty (r : Ring) : Bool := r.slots.all (fun x => x.tag == .empty)

/-- LEAVE where it is taken (R144). -/
def State.leaveTaken (s : State) : State :=
  if s.ring.isEmpty then (({ s with station := .leaving }).leaveTable.settleLeaving).answer (ok .nothing)
  else s.answer (plain .busy)

/-- LEAVE (R144, R173, R175). -/
def execLeave (s : State) : Host.Outcome State Fault Refusal := .next (s.exchange .leave State.leaveTaken)

/-- RESET with the argument WARM (R175, R180). The response is formed after the reset. -/
def execResetWarm (s : State) : Host.Outcome State Fault Refusal :=
  .next (s.exchange .resetWarm (fun s => s.warmReset.answer (ok .nothing)))

/-- RESET with the argument FULL (R175, R180). -/
def execResetFull (s : State) : Host.Outcome State Fault Refusal :=
  .next (s.exchange .resetFull (fun s => s.fullReset.answer (ok .nothing)))

/-! ## Frames that are no command -/

/-- A frame that fails check 1 of R173 is answered BAD_ARG in every station state; a RESET of no known argument passes it
and is judged as RESET FULL is taken, then BAD_ARG at check 4 (R173, R183). -/
def State.unknownFrame (s : State) (f : UnknownFrame) : State :=
  match f with
  | .code _ | .length _ _ => if s.held then { s with response := none } else s.answer (badArg 1 0)
  | .resetArgument _ => s.exchange .resetFull (fun s => s.answer (badArg 4 0))

/-- A command frame that names no command or does not fit (R173, R183). -/
def execUnknownCommand (f : UnknownFrame) (s : State) : Host.Outcome State Fault Refusal := .next (s.unknownFrame f)

/-- TCS rises before the last byte: the partial command is discarded, nothing changes, no response is sent (R172). -/
def execCommandDiscarded (s : State) : Host.Outcome State Fault Refusal := .next { s with response := none }

end Sys2Proof.Machine
end

