-- ==== Sys2Proof/Machine/Dispatch.lean ====
section
/-! DEFINITION. The dispatch: one arm per command, each one direct call of its meaning. `exec` changes everything but the
queue of waiting commands. -/

namespace Sys2Proof.Machine

/-- The effect of a command. -/
def exec (i : Instr) (s : State) : Host.Outcome State Fault Refusal :=
  match i with
  | .configure r => Sys2Proof.Machine.execConfigure r s
  | .submit r => Sys2Proof.Machine.execSubmit r s
  | .collect k => Sys2Proof.Machine.execCollect k s
  | .peek k => Sys2Proof.Machine.execPeek k s
  | .withdraw k => Sys2Proof.Machine.execWithdraw k s
  | .status => Sys2Proof.Machine.execStatus s
  | .clearSummary f => Sys2Proof.Machine.execClearSummary f s
  | .lotView lot => Sys2Proof.Machine.execLotView lot s
  | .leave => Sys2Proof.Machine.execLeave s
  | .resetWarm => Sys2Proof.Machine.execResetWarm s
  | .resetFull => Sys2Proof.Machine.execResetFull s
  | .unknownCommand f => Sys2Proof.Machine.execUnknownCommand f s
  | .commandDiscarded => Sys2Proof.Machine.execCommandDiscarded s
  | .powerOnReset => Sys2Proof.Machine.execPowerOnReset s
  | .rstnRise => Sys2Proof.Machine.execRstnRise s
  | .loadCompletes f => Sys2Proof.Machine.execLoadCompletes f s
  | .loadFaults f => Sys2Proof.Machine.execLoadFaults f s
  | .ratePositionActs => Sys2Proof.Machine.execRatePositionActs s
  | .watchdogExpires => Sys2Proof.Machine.execWatchdogExpires s
  | .clockAdvance => Sys2Proof.Machine.execClockAdvance s
  | .fetchTimerExpires r => Sys2Proof.Machine.execFetchTimerExpires r s
  | .publishTimerExpires n => Sys2Proof.Machine.execPublishTimerExpires n s
  | .faultTimerExpires => Sys2Proof.Machine.execFaultTimerExpires s
  | .beaconTimerExpires => Sys2Proof.Machine.execBeaconTimerExpires s
  | .absenceTimerExpires n => Sys2Proof.Machine.execAbsenceTimerExpires n s
  | .idleIntervalSeen => Sys2Proof.Machine.execIdleIntervalSeen s
  | .transmitStart => Sys2Proof.Machine.execTransmitStart s
  | .frameWinsLine => Sys2Proof.Machine.execFrameWinsLine s
  | .readbackFailure => Sys2Proof.Machine.execReadbackFailure s
  | .readbackDuplicate => Sys2Proof.Machine.execReadbackDuplicate s
  | .frameTruncated => Sys2Proof.Machine.execFrameTruncated s
  | .frameRejected r => Sys2Proof.Machine.execFrameRejected r s
  | .handoverAccepted n b => Sys2Proof.Machine.execHandoverAccepted n b s
  | .reclaimAccepted n lot f => Sys2Proof.Machine.execReclaimAccepted n lot f s
  | .tallyAccepted n lot f => Sys2Proof.Machine.execTallyAccepted n lot f s
  | .fetchAccepted n lot => Sys2Proof.Machine.execFetchAccepted n lot s
  | .stallAccepted n lot => Sys2Proof.Machine.execStallAccepted n lot s
  | .noticeAccepted n lot f => Sys2Proof.Machine.execNoticeAccepted n lot f s
  | .helloAccepted n e k => Sys2Proof.Machine.execHelloAccepted n e k s
  | .unknownKindFrameAccepted n c => Sys2Proof.Machine.execUnknownKindFrameAccepted n c s
  | .arbitrationLost => Sys2Proof.Machine.execArbitrationLost s

end Sys2Proof.Machine
end

