-- ==== Sys2Proof/Safety.lean ====
section
/-! DEFINITION. What a coherent station is: the invariants that the manual's whole-machine sentences give, and the terms in
which the statements speak of slots and of what a command leaves alone. -/

namespace Sys2Proof.Machine

/-! ## Ranges (R56, R94, R96, R101, R161, R165) -/

/-- Every count, position and table is within the range or size the manual gives it. -/
def State.InRange (s : State) : Prop :=
  s.ring.slots.length = 8 ∧ s.ring.put < 8 ∧ s.ring.rate < 8 ∧ s.ring.pendingCount ≤ 8 ∧
  s.table.length = 48 ∧ s.line.presence.length = 32 ∧
  s.unit.labelsIssued ≤ 65535 ∧ s.unit.recordsRefused ≤ 65535 ∧ s.unit.framesRejected ≤ 65535 ∧
  (∀ c, s.clock = some c → c.minute ≤ 2879 ∧ c.elapsed ≤ 60000) ∧
  (∀ n, s.sequence = some n → n ≤ 100000)

/-! ## Agreement of the blocks (R27, R44, R119, R147, R154, R155, R159, R165, R174) -/

/-- The store state follows the station state (R27). -/
def storeFits : StationState → TariffStore → Bool
  | .unconfigured, .empty => true
  | .loading, .loading => true
  | .ready, .loaded _ | .leaving, .loaded _ | .serving, .loaded _ => true
  | .tariffFault, .faulted _ => true
  | _, _ => false

/-- A frame is offered in JOINING and ACTIVE alone (R147). -/
def LineState.offers (l : LineState) : Bool := l == .joining || l == .active

/-- The line controller by itself: what its timers, its attempt record and its transmission say of its state. -/
def LineController.Coherent (l : LineController) : Prop :=
  (l.faultTimer.isSome = true ↔ l.state = .faulted) ∧
  (l.beaconTimer.isSome = true → l.state = .active) ∧
  (l.transmission.isSome = true → l.state.offers = true) ∧
  (∀ a, l.attempt = some a → l.state.offers = true ∧ 1 ≤ a.count ∧ a.count ≤ 7)

/-- The blocks agree: store, configuration, clock, sequence counter, screen and line with the station state. -/
def State.BlocksAgree (s : State) : Prop :=
  storeFits s.station s.store = true ∧
  (s.configuration.isSome = true ↔ s.station ≠ .unconfigured) ∧
  (s.clock.isSome = true ↔ s.station ≠ .unconfigured) ∧
  (s.sequence.isSome = true ↔ s.station ≠ .unconfigured) ∧
  (s.screen.isSome = true ↔ s.inService = true) ∧
  (s.line.state = .off ↔ s.inService = false) ∧
  s.line.Coherent

/-! ## The ring (R56, R57, R69, R175) -/

/-- A slot holds what its tag says: nothing when EMPTY, a record otherwise, its result when DONE and only then; a GROUPED
or SEEKING slot holds a parcel (R57). -/
def Slot.Fits (x : Slot) : Prop :=
  (x.tag = .empty → x = Slot.vacant) ∧
  (x.tag ≠ .empty → x.record.isSome = true) ∧
  (x.tag = .complete ↔ (x.label.isSome || x.screenResult.isSome) = true) ∧
  (x.tag = .grouped ∨ x.tag = .seeking → ∃ p, x.record = some (.parcel p))

/-- The slot `k` places on from the rate position (R56). -/
def State.ahead (s : State) (k : Nat) : Slot := s.slot ((s.ring.rate + k) % 8)

/-- The ring as the manual describes it between events. The records not yet taken or passed stand in the pending-count
slots from the rate position up to the put position (R56): every QUEUED slot is one of these, and no GROUPED or SEEKING
slot is. -/
def State.RingFits (s : State) : Prop :=
  s.ring.slots.length = 8 ∧ s.ring.put < 8 ∧ s.ring.rate < 8 ∧ s.ring.pendingCount ≤ 8 ∧
  s.ring.put = (s.ring.rate + s.ring.pendingCount) % 8 ∧
  (∀ k, k < 8 → (s.ahead k).tag = .queued → k < s.ring.pendingCount) ∧
  (∀ k, k < s.ring.pendingCount → (s.ahead k).tag ≠ .grouped ∧ (s.ahead k).tag ≠ .seeking) ∧
  (∀ x ∈ s.ring.slots, x.Fits) ∧
  (s.ring.watchdog.isSome = s.ring.consignment.isSome) ∧
  (∀ i, (s.slot i).tag = .grouped ↔ ∃ c, s.ring.consignment = some c ∧ i ∈ c.members) ∧
  (∀ c, s.ring.consignment = some c → c.members ≠ [] ∧ c.members.length ≤ 7 ∧ c.members.Nodup) ∧
  (s.station ≠ .ready → ∀ x ∈ s.ring.slots, x.tag = .empty)

/-! ## The home store (R98, R99) -/

/-- The home store's lots are distinct. -/
def State.HomeDistinct (s : State) : Prop := (s.home.map (·.lot)).Nodup

/-! ## The lot table, waiting lists and figures (R100, R102, R103, R108) -/

/-- The lots that an entry names: its lot ID and its incoming lot (R102). -/
def LotEntry.names (e : LotEntry) : List Nat := e.lot.toList ++ (e.incoming.map (·.lot)).toList

/-- A waiting list is in ring order, and each of its requests names the lot it waits on (R108). -/
def Waits (lot : Nat) (qs : List Request) : Prop :=
  qs.Pairwise (fun a b => a.order ≤ b.order) ∧ ∀ q ∈ qs, q.waitingOn = some lot

/-- The figures lie within the capacity that the loaded plan gives the lot (R103). -/
def State.WithinPlan (s : State) (lot : Nat) (f : Figures) : Prop :=
  ∀ t, s.store = .loaded t → ∃ d ∈ t.plan, d.lot = lot ∧
    f.weight ≤ d.capacity.weight ∧ f.litres ≤ d.capacity.litres ∧ f.pieces ≤ d.capacity.pieces

/-- The lot records as the manual describes them between events: no two entries name one lot and no entry names a lot
homed here (R102), waiting lists in ring order on their own lot (R108), figures held within the plan capacity (R103), and
no record before the station is READY (R100). -/
def State.LotsFit (s : State) : Prop :=
  (s.table.flatMap LotEntry.names).Nodup ∧
  (∀ e ∈ s.table, ∀ lot ∈ e.names, s.homeOf lot ≠ s.own) ∧
  (∀ r ∈ s.home, Waits r.lot r.waiting) ∧
  (∀ e ∈ s.table, ∀ lot, e.lot = some lot → Waits lot e.waiting) ∧
  (∀ e ∈ s.table, ∀ c, e.incoming = some c → Waits c.lot c.waiting) ∧
  (∀ r ∈ s.home, (r.state = .atHome ∨ r.state = .ended → s.WithinPlan r.lot r.figures) ∧
    (∀ f, r.lastSeen = some f → s.WithinPlan r.lot f)) ∧
  (∀ e ∈ s.table, ∀ lot f, e.lot = some lot → e.figures = some f → s.WithinPlan lot f) ∧
  (s.inService = false → s.home = [] ∧ ∀ e ∈ s.table, e = LotEntry.cleared)

/-! ## Terms of the statements -/

/-- The flag codes set in `w` are those of `v` and the flags listed. -/
def SetExactly (v w : BitVec 16) (fs : List Flag) : Prop := ∀ f, flagSet w f = (flagSet v f || fs.contains f)

/-- A parcel's slot `y` is its slot `x` completed REFUSED: record and rating kept, a label record with the reason and no
number (R72, R91, R168). -/
def Slot.RefusedAs (x y : Slot) (why : Reason) : Prop :=
  y.tag = .complete ∧ y.record = x.record ∧ y.rating = x.rating ∧ y.screenResult = x.screenResult ∧
  ∃ l, y.label = some l ∧ l.refusal = some why ∧ l.trackingNumber = List.replicate 13 0x20 ∧
    l.consignmentNumber = List.replicate 13 0x20 ∧ l.departure = 0 ∧ l.cutOff = 0 ∧ l.lot = 0 ∧
    l.errorSummary = BitVec.twoPow 16 (why.code - 1)

/-- The band charge in cents of a weight in a zone: the first band whose bound is at least the weight, or the top band
with its excess steps (R10, R11). -/
def RateSection.Charges (r : RateSection) (zone w cents : Nat) : Prop :=
  (∃ (k : Nat) (b : Band), r.bands[k]? = some b ∧ w ≤ b.bound ∧
    (∀ (j : Nat) (x : Band), j < k → r.bands[j]? = some x → x.bound < w) ∧
    cents = b.charges.getD zone 0) ∨
  (∃ top : Band, r.bands.getLast? = some top ∧ (∀ x ∈ r.bands, x.bound < w) ∧
    cents = top.charges.getD zone 0 + (w - top.bound + (r.excessStep - 1)) / r.excessStep * r.increments.getD zone 0)

/-- Everything but the ring, the summary with its counters, and the response is the same. -/
def State.SameOutsideRing (s t : State) : Prop :=
  t.pending = s.pending ∧ t.held = s.held ∧ t.station = s.station ∧ t.configuration = s.configuration ∧
  t.timebase = s.timebase ∧ t.ordinal = s.ordinal ∧ t.clock = s.clock ∧ t.store = s.store ∧ t.screen = s.screen ∧
  t.home = s.home ∧ t.table = s.table ∧ t.line = s.line ∧ t.sequence = s.sequence

/-- Everything but the home store, the lot table, the line controller and the order numbers is the same. -/
def State.SameOutsideLots (s t : State) : Prop :=
  t.pending = s.pending ∧ t.held = s.held ∧ t.response = s.response ∧ t.station = s.station ∧
  t.configuration = s.configuration ∧ t.timebase = s.timebase ∧ t.clock = s.clock ∧ t.ring = s.ring ∧
  t.unit = s.unit ∧ t.store = s.store ∧ t.screen = s.screen ∧ t.sequence = s.sequence

/-- The line controller after an accepted frame of another station: its sender present for 60 s, this station's own
transmission at an end (R153, R161). -/
def LineController.heard (l : LineController) (sender : Nat) : LineController :=
  { l with
    presence := l.presence.set sender ⟨true, some 60000⟩
    transmission := none
    droveSlot := false }

/-- A station that acts on lot frames: READY, LEAVING or SERVING (R122). -/
def State.Acts (s : State) : Prop := s.station = .ready ∨ s.station = .leaving ∨ s.station = .serving

/-- A station that hears another's frame: engine running, in service, on the line, sending nothing, the sender's number not
its own (R122, R147). -/
def State.Hears (s : State) (sender : Nat) : Prop :=
  s.held = false ∧ s.Acts ∧ s.line.state ≠ .off ∧ s.line.transmission = none ∧ sender ≠ s.own

/-- The station state when an accepted frame has left this lot table: LEAVING is left for SERVING when no entry holds a lot
as owner (R144). -/
def State.settled (s : State) (table : List LotEntry) : StationState :=
  if s.station = .leaving ∧ ∀ e ∈ table, e.state ≠ .owned ∧ e.state ≠ .ownedModified then .serving else s.station

/-- The one home record of a lot (R98). -/
def State.OneHome (s : State) (lot : Nat) (r : HomeRecord) : Prop :=
  s.findHome lot = some r ∧ ∀ x ∈ s.home, x.lot = lot → x = r

/-- The one entry that names a lot as its lot ID, no home record of this station naming it (R101, R102). -/
def State.OneEntry (s : State) (lot i : Nat) (e : LotEntry) : Prop :=
  s.findHome lot = none ∧ s.entryOf lot = some i ∧ s.table[i]? = some e

/-- The rate position is about to take the record of slot `i` under the loaded tariff `t` (R61). -/
def State.AboutToTake (s : State) (t : Tariff) (i : Nat) (r : Record) : Prop :=
  s.held = false ∧ s.station = .ready ∧ s.store = .loaded t ∧ s.ring.rate = i ∧ 0 < s.ring.pendingCount ∧
  (s.slot i).tag = .queued ∧ (s.slot i).record = some r

/-- The ring's positions after a slot is taken (R61). -/
def Ring.Advanced (r q : Ring) : Prop :=
  q.put = r.put ∧ q.rate = (r.rate + 1) % 8 ∧ q.pendingCount = r.pendingCount - 1 ∧ q.slots.length = r.slots.length

/-- A parcel's slot completed REFUSED at rating: its rating result, and a label record with the reason (R25, R63, R91). -/
def Slot.RatedRefused (x y : Slot) (rating : Option RatingResult) (why : Reason) : Prop :=
  Slot.RefusedAs { x with rating := rating } y why

/-- The members of a consignment refused whole: each DONE with the reason, its link complete, every other slot as it was,
no consignment open, the watchdog stopped, the flag raised once (R62, R70, R76, R81, R94). -/
def State.ConsignmentRefused (s t : State) (members : List Nat) (why : Reason) (flag : Flag) : Prop :=
  (∀ k j, members[k]? = some j →
    Slot.RefusedAs (s.slot j) (t.slot j) why ∧ (t.slot j).link = some ⟨members, k + 1⟩) ∧
  (∀ j, j ∉ members → t.slot j = s.slot j) ∧
  t.ring.consignment = none ∧ t.ring.watchdog = none ∧
  t.unit.labelsIssued = s.unit.labelsIssued ∧ t.unit.framesRejected = s.unit.framesRejected ∧
  t.unit.recordsRefused = min (s.unit.recordsRefused + members.length) 65535 ∧
  SetExactly s.unit.summary t.unit.summary [flag]

/-! ## Requests (R104, R109 to R111) -/

/-- The requests stand for SEEKING parcels, none of them in two (R71, R104, R108). -/
def State.MayServe (s : State) (qs : List Request) : Prop :=
  (qs.flatMap (·.members)).Nodup ∧
  ∀ q ∈ qs, ∀ i ∈ q.members, (s.slot i).tag = .seeking ∧ ∃ p, (s.slot i).record = some (.parcel p)

/-- Each of the three figures at or below the lot's (R110). -/
def FitsIn (q f : Figures) : Prop :=
  q.weight ≤ f.weight ∧ q.litres ≤ f.litres ∧ q.pieces ≤ f.pieces

/-- R111 on the figures alone: requests taken in ring order, each seeing what the ones before it left. Gives the requests
served, those set aside, and the figures left. -/
def serve (f : Figures) : List Request → List Request × List Request × Figures
  | [] => ([], [], f)
  | q :: qs =>
    if q.figures.weight ≤ f.weight ∧ q.figures.litres ≤ f.litres ∧ q.figures.pieces ≤ f.pieces then
      (q :: (serve ⟨f.weight - q.figures.weight, f.litres - q.figures.litres, f.pieces - q.figures.pieces⟩ qs).1,
        (serve ⟨f.weight - q.figures.weight, f.litres - q.figures.litres, f.pieces - q.figures.pieces⟩ qs).2)
    else ((serve f qs).1, q :: (serve f qs).2.1, (serve f qs).2.2)

/-- Under a clear NoDispatch mask, requests with no candidate after the present one (R86, R109). -/
def State.NoneLeft (s : State) (qs : List Request) : Prop :=
  s.config.noDispatchMask = false ∧ ∀ q ∈ qs, q.candidates.drop (q.next + 1) = []

/-- What the requests' end leaves outside the lot records and the line: the members served are labelled from departure `d`
with consecutive numbers from `n` in ring order, the members set aside are refused NoDispatch, every other slot is as it
was (R72, R86, R94, R109 to R111, R166). -/
def State.Served (s t : State) (d : Departure) (mark : Bool) (served aside : List Request) (n : Nat) : Prop :=
  (∀ k j, (served.flatMap (·.members))[k]? = some j →
    (t.slot j).tag = .complete ∧ (t.slot j).record = (s.slot j).record ∧ (t.slot j).rating = (s.slot j).rating ∧
    ∃ l, (t.slot j).label = some l ∧ l.refusal = none ∧ l.trackingNumber = trackingNumber s.config (n + k) ∧
      l.departure = d.index ∧ l.cutOff = d.cutOff ∧ l.lot = d.lot ∧ l.dispatchPending = false ∧ l.reclaimedLot = mark) ∧
  (∀ j ∈ aside.flatMap (·.members), Slot.RefusedAs (s.slot j) (t.slot j) .noDispatch) ∧
  (∀ j, j ∉ served.flatMap (·.members) → j ∉ aside.flatMap (·.members) → t.slot j = s.slot j) ∧
  t.ring = { s.ring with slots := t.ring.slots } ∧
  t.sequence = some (n + (served.flatMap (·.members)).length) ∧
  (s.unit.labelsIssued ≤ 65535 →
    t.unit.labelsIssued = min (s.unit.labelsIssued + (served.flatMap (·.members)).length) 65535) ∧
  (s.unit.recordsRefused ≤ 65535 →
    t.unit.recordsRefused = min (s.unit.recordsRefused + (aside.flatMap (·.members)).length) 65535) ∧
  t.unit.framesRejected = s.unit.framesRejected ∧
  SetExactly s.unit.summary t.unit.summary (if aside = [] then [] else [.noDispatch]) ∧
  t.pending = s.pending ∧ t.held = s.held ∧ t.response = s.response ∧ t.configuration = s.configuration ∧
  t.timebase = s.timebase ∧ t.clock = s.clock ∧ t.store = s.store ∧ t.screen = s.screen

/-- Everything but slots, lot records, order numbers, line, station state, sequence counter, summary and counters is the
same; the rejected frames' counter is the same too. -/
def State.SameAround (s t : State) : Prop :=
  t.ring = { s.ring with slots := t.ring.slots } ∧ t.unit.framesRejected = s.unit.framesRejected ∧
  t.pending = s.pending ∧ t.held = s.held ∧ t.response = s.response ∧ t.configuration = s.configuration ∧
  t.timebase = s.timebase ∧ t.clock = s.clock ∧ t.store = s.store ∧ t.screen = s.screen

/-- Requests that end refused with no lot touched: their members are refused with the reason, every other slot is as it
was, no number is taken, and the flags are set (R86, R87, R94, R109, R167). -/
def State.AllRefused (s t : State) (qs : List Request) (why : Reason) (fs : List Flag) : Prop :=
  (∀ j ∈ qs.flatMap (·.members), Slot.RefusedAs (s.slot j) (t.slot j) why) ∧
  (∀ j, j ∉ qs.flatMap (·.members) → t.slot j = s.slot j) ∧
  t.sequence = s.sequence ∧ t.unit.labelsIssued = s.unit.labelsIssued ∧
  (s.unit.recordsRefused ≤ 65535 →
    t.unit.recordsRefused = min (s.unit.recordsRefused + (qs.flatMap (·.members)).length) 65535) ∧
  SetExactly s.unit.summary t.unit.summary fs ∧ s.SameAround t

/-- Requests that end refused NoDispatch, the flag set when there is such a request (R86, R109). -/
def State.EndRefused (s t : State) (qs : List Request) : Prop :=
  s.AllRefused t qs .noDispatch (if qs = [] then [] else [.noDispatch])

/-- A request labelled Dispatch pending with consecutive numbers from `n`: no lot, departure 0, NoDispatch set (R86,
R109, R166). -/
def State.Pending (s t : State) (q : Request) (n : Nat) : Prop :=
  (∀ k j, q.members[k]? = some j →
    (t.slot j).tag = .complete ∧ (t.slot j).record = (s.slot j).record ∧ (t.slot j).rating = (s.slot j).rating ∧
    ∃ l, (t.slot j).label = some l ∧ l.refusal = none ∧ l.trackingNumber = trackingNumber s.config (n + k) ∧
      l.departure = 0 ∧ l.cutOff = 0 ∧ l.lot = 0 ∧ l.dispatchPending = true ∧ l.reclaimedLot = false) ∧
  (∀ j, j ∉ q.members → t.slot j = s.slot j) ∧
  t.sequence = some (n + q.members.length) ∧ t.unit.recordsRefused = s.unit.recordsRefused ∧
  (s.unit.labelsIssued ≤ 65535 → t.unit.labelsIssued = min (s.unit.labelsIssued + q.members.length) 65535) ∧
  SetExactly s.unit.summary t.unit.summary [.noDispatch] ∧ s.SameAround t

/-- A request that has no candidate left: refused NoDispatch under a clear mask; under a set one labelled Dispatch pending
when the sequence counter covers it, and refused NoNumber when not (R86, R87, R109). -/
def State.Undelivered (s t : State) (q : Request) : Prop :=
  (s.config.noDispatchMask = false → s.AllRefused t [q] .noDispatch [.noDispatch]) ∧
  (∀ n, s.config.noDispatchMask = true → s.sequence = some n →
    (n + q.members.length ≤ 100000 → s.Pending t q n) ∧
    (100000 < n + q.members.length → s.AllRefused t [q] .noNumber [.noDispatch, .noNumber]))

/-- Requests that go on waiting: no slot, number, flag or counter moves (R107, R108). -/
def State.StillSeeking (s t : State) : Prop :=
  t.ring = s.ring ∧ t.unit = s.unit ∧ t.sequence = s.sequence ∧ s.SameAround t

/-- Requests waiting on a lot that has just been given up: those set aside have no candidate left (R109, R126). -/
def State.MayEnd (s : State) (qs : List Request) : Prop := s.MayServe qs ∧ (qs = [] ∨ s.NoneLeft qs)

/-- The requests of a waiting list at the arrival of a lot with departure `d`: what is served, what is set aside and the
figures left; at or after the cut-off nothing is served (R110, R111). -/
def State.arrival (s : State) (d : Departure) (f : Figures) (qs : List Request) :
    List Request × List Request × Figures :=
  if s.minute < d.cutOff then serve f qs else ([], qs, f)

/-- The requests waiting can be gone through: the label unit covers those served from number `n` on, and those set aside
have no candidate left (R109 to R111, R166). -/
def State.MayArrive (s : State) (d : Departure) (f : Figures) (qs : List Request) (n : Nat) : Prop :=
  s.MayServe qs ∧ s.sequence = some n ∧
  n + ((s.arrival d f qs).1.flatMap (·.members)).length ≤ 100000 ∧
  ((s.arrival d f qs).2.1 = [] ∨ s.NoneLeft (s.arrival d f qs).2.1)

/-- Step 3 of R127 at a home record that has taken the lot: on to the queue's head, or tallied when due. -/
def HomeRecord.Onward (r : HomeRecord) (minute : Nat) (d : Departure) (queue : List Nat) : Prop :=
  (∀ h rest, queue = h :: rest → r.handingOver = true ∧ ∃ q, r.frame = some ⟨.handover, h, q⟩) ∧
  (queue = [] → r.handingOver = false ∧
    (d.cutOff ≤ minute → ∃ q, r.frame = some ⟨.tally, 0, q⟩) ∧ (minute < d.cutOff → r.frame = none))

/-- Step 3 of R127 at an entry that has taken the lot; a LEAVING or SERVING station hands a lot without a queue to its
home unless it is due for TALLY (R145). -/
def State.Onward (s : State) (e : LotEntry) (d : Departure) (queue : List Nat) : Prop :=
  (∀ h rest, queue = h :: rest → e.handingOver = true ∧ ∃ q, e.frame = some ⟨.handover, h, q⟩) ∧
  (queue = [] → d.cutOff ≤ s.minute → e.handingOver = false ∧ ∃ q, e.frame = some ⟨.tally, 0, q⟩) ∧
  (queue = [] → s.minute < d.cutOff → s.station = .ready → e.handingOver = false ∧ e.frame = none) ∧
  (queue = [] → s.minute < d.cutOff → s.station ≠ .ready →
    e.handingOver = true ∧ ∃ q, e.frame = some ⟨.handover, d.home, q⟩)

/-! ## The try of one parcel (R61, R63, R104 to R110) -/

/-- The rate position has taken slot `i`: outside that slot, the lot records, the summary with its counters and the
sequence counter, only the ring's positions and count of takings move (R61). -/
def State.Took (s u : State) (i : Nat) : Prop :=
  (∀ j, j ≠ i → u.slot j = s.slot j) ∧
  u.ring = { s.ring with
    slots := u.ring.slots, rate := (i + 1) % 8, pendingCount := s.ring.pendingCount - 1
    takings := s.ring.takings + 1 } ∧
  u.ring.slots.length = s.ring.slots.length ∧
  u.pending = s.pending ∧ u.held = s.held ∧ u.response = s.response ∧ u.station = s.station ∧
  u.configuration = s.configuration ∧ u.timebase = s.timebase ∧ u.clock = s.clock ∧ u.store = s.store ∧
  u.screen = s.screen ∧ u.line = s.line

/-- The parcel of slot `i` waits: SEEKING with its rating result, no number taken (R63, R107, R108). -/
def State.LeftWaiting (s u : State) (i : Nat) (r : RatingResult) (fs : List Flag) : Prop :=
  s.Took u i ∧ u.slot i = { s.slot i with tag := .seeking, rating := some r } ∧ u.sequence = s.sequence ∧
  u.unit = { s.unit with summary := u.unit.summary } ∧ SetExactly s.unit.summary u.unit.summary fs

/-- The parcel of slot `i` is refused after its rating, for want of a departure or of a number (R86, R87, R109, R167). -/
def State.Unplaced (s u : State) (i : Nat) (r : RatingResult) (why : Reason) (fs : List Flag) : Prop :=
  s.Took u i ∧ Slot.RatedRefused (s.slot i) (u.slot i) (some r) why ∧ u.sequence = s.sequence ∧
  u.unit = { s.unit with
    summary := u.unit.summary, recordsRefused := min (s.unit.recordsRefused + 1) 65535 } ∧
  SetExactly s.unit.summary u.unit.summary fs

/-- The parcel of slot `i` is refused NoDispatch (R86, R109). -/
def State.Undispatched (s u : State) (i : Nat) (r : RatingResult) (fs : List Flag) : Prop :=
  s.Unplaced u i r .noDispatch (fs ++ [.noDispatch])

/-- The parcel `p` of slot `i` is labelled from departure `d` with number `n` (R72, R110, R166, R169). -/
def State.Labelled (s u : State) (i : Nat) (p : ParcelRecord) (r : RatingResult) (fs : List Flag) (d : Departure)
    (n : Nat) (mark : Bool) : Prop :=
  s.Took u i ∧ (u.slot i).tag = .complete ∧ (u.slot i).record = some (.parcel p) ∧ (u.slot i).rating = some r ∧
  (∃ l, (u.slot i).label = some l ∧ l.refusal = none ∧ l.terminalTag = p.terminalTag ∧
    l.trackingNumber = trackingNumber s.config n ∧ l.consignmentNumber = List.replicate 13 0x20 ∧ l.pieceIndex = 0 ∧
    l.charge = r.charge ∧ l.base = r.base ∧ l.fuel = r.fuel ∧ l.fixed = r.fixed ∧ l.insurance = r.insurance ∧
    l.discount = r.discount ∧ l.tax = r.tax ∧ l.chargeableWeight = r.chargeableWeight ∧ l.zone = r.zone ∧
    l.route = r.route ∧ l.departure = d.index ∧ l.cutOff = d.cutOff ∧ l.lot = d.lot ∧ l.direction = r.direction ∧
    l.inexact = r.inexact ∧ l.clamped = r.clamped ∧ l.inspect = r.inspect ∧ l.dispatchPending = false ∧
    l.reclaimedLot = mark) ∧
  u.sequence = some (n + 1) ∧
  u.unit = { s.unit with summary := u.unit.summary, labelsIssued := min (s.unit.labelsIssued + 1) 65535 } ∧
  SetExactly s.unit.summary u.unit.summary fs

/-- A candidate homed here that a request of these figures passes over without a trace: ENDED, last seen too small, or at
home without room (R106). -/
def State.HomePasses (s : State) (f : Figures) (c : Candidate) : Prop :=
  s.homeOf c.lot = s.own ∧ ∃ h, s.findHome c.lot = some h ∧
    (h.state = .ended ∨ (h.state = .away ∧ ∃ g, h.lastSeen = some g ∧ ¬ FitsIn f g) ∨
      (h.state = .atHome ∧ h.queue = [] ∧ h.handingOver = false ∧ ¬ FitsIn f h.figures))

/-- Entry `i` is `e`, qualifies, and has the lowest key of those that qualify, the lowest number first among equals
(R97, R115, R116, R128). -/
def State.LeastOf (s : State) (qualifies : LotEntry → Prop) (key : LotEntry → Nat) (i : Nat) (e : LotEntry) : Prop :=
  s.table[i]? = some e ∧ qualifies e ∧
  ∀ k x, s.table[k]? = some x → qualifies x → key e < key x ∨ (key e = key x ∧ i ≤ k)

/-- An unreachable time in the future (R97, R107). -/
def State.Unreachable (s : State) (e : LotEntry) : Prop := ∃ u, e.unreachable = some u ∧ s.timebase < u

/-- An entry that step 1 of R115 may take: FREE or COPY, no frame, no incoming lot, not unreachable. -/
def State.MayReplace (s : State) (e : LotEntry) : Prop :=
  (e.state = .free ∨ e.state = .copy) ∧ e.incoming = none ∧ e.frame = none ∧ ¬ s.Unreachable e

/-- An entry that a return may take (R128). -/
def MayReturn (e : LotEntry) : Prop := (e.state = .free ∨ e.state = .copy) ∧ e.incoming = none

/-- An entry that may be cast out (R116). -/
def State.MayCastOut (s : State) (e : LotEntry) : Prop :=
  (e.state = .owned ∨ e.state = .ownedModified) ∧ e.queue = [] ∧ e.waiting = [] ∧ e.incoming = none ∧
  e.handingOver = false ∧ (e.frame = none ∨ ∃ g, e.frame = some g ∧ g.kind = .notice) ∧
  ∃ lot, e.lot = some lot ∧ s.isPresent (s.homeOf lot) = true

/-- An entry that a request of these figures passes over (R107). -/
def State.EntryPasses (s : State) (f : Figures) (e : LotEntry) : Prop :=
  ((e.state = .owned ∨ e.state = .ownedModified) ∧ e.castout = true) ∨
  ((e.state = .free ∨ e.state = .copy) ∧ s.Unreachable e) ∨
  (e.state = .copy ∧ ∃ g, e.figures = some g ∧ ¬ FitsIn f g) ∨
  ((e.state = .owned ∨ e.state = .ownedModified) ∧ e.queue = [] ∧ e.handingOver = false ∧
    ∃ g, e.figures = some g ∧ ¬ FitsIn f g)

/-- A candidate that a request of these figures passes over: its cut-off has come, its lot is homed here and passes, or
the entry that names its lot passes (R106, R107). -/
def State.Passes (s : State) (f : Figures) (c : Candidate) : Prop :=
  c.cutOff ≤ s.minute ∨ s.HomePasses f c ∨
  (s.homeOf c.lot ≠ s.own ∧ ∃ k e, s.entryOf c.lot = some k ∧ s.table[k]? = some e ∧ s.EntryPasses f e)

/-- The station after the candidates have been passed over: each try at an entry is a use of it (R97, R107; order numbers
are log entry 4). -/
def State.passing (s : State) : List Candidate → State
  | [] => s
  | c :: cs =>
    if c.cutOff ≤ s.minute ∨ s.homeOf c.lot = s.own then s.passing cs
    else match s.entryOf c.lot with
      | some k => State.passing { s with
          table := s.table.modify k (fun e => { e with lastUse := s.ordinal }), ordinal := s.ordinal + 1 } cs
      | none => s.passing cs

/-- The request is placed by its taking order: before the first younger one (R108). -/
def Placed (q : Request) (ws ws' : List Request) : Prop :=
  ∃ older younger, ws = older ++ younger ∧ ws' = older ++ q :: younger ∧ (∀ x ∈ older, x.order ≤ q.order) ∧
    ∀ x ∈ younger.head?, q.order < x.order

/-- The first try that does not pass over its lot, of the request `q` at the lot of departure `d` before its cut-off; `u`
is the station after it. A lot at home, or owned by an entry, with room for the request is debited and the request
`labelled`, or it is `unnumbered` with the lot's figures as they were; otherwise the request `waits`: the lot is about to
leave, is asked for already, or is asked for now with a FETCH; a lot that no entry names gets an entry by R115 or is the
incoming lot of a castout by R116 (R106, R107, R108, R110). -/
def State.Tries (s u : State) (lot : Nat) (d : Departure) (q : Request) (waits : Prop) (labelled : Nat → Bool → Prop)
    (unnumbered : Prop) : Prop :=
  (∀ h, d.home = s.own → s.OneHome lot h →
    let becomes (h' : HomeRecord) : Prop :=
      u.table = s.table ∧ u.home = s.home.map (fun x => if x.lot = lot then h' else x)
    let joins (h' : HomeRecord) : Prop := waits ∧ ∃ ws, Placed q h.waiting ws ∧ becomes { h' with waiting := ws }
    (∀ n, h.state = .atHome → h.queue = [] → h.handingOver = false → FitsIn q.figures h.figures → s.sequence = some n →
      (n + q.members.length ≤ 100000 → labelled n h.reclaimed ∧ becomes { h with figures :=
        ⟨h.figures.weight - q.figures.weight, h.figures.litres - q.figures.litres, h.figures.pieces - q.figures.pieces⟩ }) ∧
      (100000 < n + q.members.length → unnumbered ∧ becomes h)) ∧
    ((h.state = .atHome ∧ (h.queue ≠ [] ∨ h.handingOver = true)) ∨ h.state = .askingHome → joins h) ∧
    (h.state = .unknown ∨ (h.state = .away ∧ ∀ g, h.lastSeen = some g → FitsIn q.figures g) →
      (h.frame = none → joins { h with state := .askingHome, attempts := 0, frame := some ⟨.fetch, 0, s.ordinal⟩ }) ∧
      ((∃ g, h.frame = some g ∧ g.kind = .reclaim) → joins { h with state := .askingHome, attempts := 0 }))) ∧
  (d.home ≠ s.own →
    let becomes (k : Nat) (e' : LotEntry) : Prop := u.home = s.home ∧ u.table = s.table.set k e'
    (∀ (k : Nat) (e : LotEntry), s.entryOf lot = some k → s.table[k]? = some e →
      let joins (e' : LotEntry) : Prop :=
        waits ∧ ∃ ws, Placed q e.waiting ws ∧ becomes k { e' with lastUse := s.ordinal, waiting := ws }
      (e.state = .free ∨ (e.state = .copy ∧ ∀ g, e.figures = some g → FitsIn q.figures g) → ¬ s.Unreachable e →
        (e.frame = none ∨ ∃ g, e.frame = some g ∧ g.kind = .stall) →
        joins { e with
          state := .asking, attempts := 0, fetchTimer := none, frame := some ⟨.fetch, 0, s.ordinal + 1⟩ }) ∧
      (e.state = .asking → joins e) ∧
      (e.state = .owned ∨ e.state = .ownedModified → e.castout = false → e.queue ≠ [] ∨ e.handingOver = true →
        joins e) ∧
      (∀ f n, e.state = .owned ∨ e.state = .ownedModified → e.castout = false → e.queue = [] →
        e.handingOver = false → e.figures = some f → FitsIn q.figures f → s.sequence = some n →
        (n + q.members.length ≤ 100000 → labelled n e.reclaimed ∧ becomes k { e with
          state := .ownedModified
          figures := some ⟨f.weight - q.figures.weight, f.litres - q.figures.litres, f.pieces - q.figures.pieces⟩
          publishTimer := some (e.publishTimer.getD (s.config.publishDelay * 1000))
          lastUse := s.ordinal + 1, lastDebit := s.ordinal + 1 }) ∧
        (100000 < n + q.members.length → unnumbered ∧ becomes k { e with lastUse := s.ordinal }))) ∧
    (s.entryOf lot = none →
      (∀ (k : Nat) (e : LotEntry) (n : Incoming), s.incomingOf lot = some k → s.table[k]? = some e →
        e.incoming = some n →
        waits ∧ ∃ ws, Placed q n.waiting ws ∧
          becomes k { e with lastUse := s.ordinal, incoming := some { n with waiting := ws } }) ∧
      (s.incomingOf lot = none →
        (∀ k e, s.LeastOf s.MayReplace (·.lastUse) k e → waits ∧ becomes k { LotEntry.cleared with
          lot := some lot, state := .asking, lastUse := s.ordinal, lastDebit := e.lastDebit, waiting := [q]
          frame := some ⟨.fetch, 0, s.ordinal + 1⟩ }) ∧
        (∀ k e old, (∀ x ∈ s.table, ¬ s.MayReplace x) → s.LeastOf s.MayCastOut (·.lastDebit) k e → e.lot = some old →
          waits ∧ becomes k { e with
            castout := true, handingOver := true, publishTimer := none
            frame := some ⟨.handover, s.homeOf old, s.ordinal⟩, incoming := some ⟨lot, [q]⟩ }))))

/-- What becomes of one request that waits no longer and moves on, from the event's state `s` to `u`: it goes through its
later candidates, comes to the try of the first that it does not pass over, and is undelivered when it passes over all or
comes to one whose entry cannot be made (R106, R107, R109, R115). -/
def State.MovesOn (s u : State) (q : Request) : Prop :=
  let left := q.candidates.drop (q.next + 1)
  ((∀ x ∈ left, s.Passes q.figures x) → s.Undelivered u q ∧ u.home = s.home ∧ u.table = (s.passing left).table) ∧
  (∀ (pre : List Candidate) (c : Candidate) (cs : List Candidate) (d : Departure), left = pre ++ c :: cs →
    (∀ x ∈ pre, s.Passes q.figures x) → s.planLot c.lot = some d → c.cutOff = d.cutOff → s.minute < d.cutOff →
    (s.passing pre).Tries u c.lot d { q with next := q.next + 1 + pre.length, waitingOn := some c.lot }
      (s.StillSeeking u) (fun n mark => s.Served u d mark [q] [] n) (s.AllRefused u [q] .noNumber [.noNumber]) ∧
    (d.home ≠ s.own → s.entryOf c.lot = none → s.incomingOf c.lot = none →
      (∀ x ∈ s.table, ¬ s.MayReplace x) → (∀ x ∈ s.table, ¬ s.MayCastOut x) →
      s.Undelivered u q ∧ u.home = s.home ∧ u.table = (s.passing pre).table))

/-- The line controller after the acceptance of this station's own frame in ACTIVE: its own number present for 60 s, the
beacon timer at 20 s, no failed attempt, no transmission (R153, R159, R161). -/
def LineController.delivered (l : LineController) (own : Nat) : LineController :=
  { l with
    presence := l.presence.set own ⟨true, some 60000⟩
    transmission := none
    droveSlot := false
    attempt := none
    beaconTimer := some 20000 }

/-- The line controller in DUPLICATE after a frame of its own number that it did not send (R153, R156, R161). -/
def LineController.duplicated (l : LineController) (own : Nat) : LineController :=
  { l.heard own with state := .duplicate, attempt := none, beaconTimer := none, faultTimer := none }

/-! ## The load (R32) -/

/-- The consistency checks of a section kind (R34 to R39). -/
def consistent (k : SectionKind) (body : Bytes) : Bool :=
  match k with
  | .zones => (zonesOf body).isSome
  | .ratesEconomy | .ratesStandard | .ratesPriority => (rateOf body).isSome
  | .surcharges => (surchargesOf body).isSome
  | .discounts => (discountsOf body).isSome
  | .dispatchPlan => (planOfBody body).isSome
  | .screenDefault => true

/-- The fault of one required kind by the three checks of R32. -/
def sectionFault (f : Flash) (chain : List ChainSection) (k : SectionKind) : Option LoadFault :=
  match firstOfKind k chain with
  | none => some (.missing k)
  | some c =>
    if crc16 (c.body f) ≠ BitVec.ofNat 16 c.crc then some (.badCrc k)
    else if consistent k (c.body f) = false then some (.inconsistent k)
    else none

/-- The required kinds in the order in which they are checked (R32). -/
def requiredKinds : List SectionKind :=
  [.zones, .ratesEconomy, .ratesStandard, .ratesPriority, .surcharges, .discounts, .dispatchPlan]

end Sys2Proof.Machine

/-- The commands that take the engine to its reset values: RESET FULL and the fall of RSTN (R180, R181). -/
def Sys2Proof.Instr.isFullReset : Sys2Proof.Instr → Bool
  | .resetFull | .powerOnReset => true
  | _ => false
end

