-- ==== Sys2Proof/WellFormed.lean ====
section
/-! DEFINITION. Which terms of `Instr` are commands a sender can form: every field within the width its layout gives it
(R182, R184, R186), nothing of what the part itself checks. -/

namespace Sys2Proof

/-- Below 2^8, 2^16 and 2^32: the one, two and four byte fields. -/
abbrev fits8 (n : Nat) : Prop := n < 256
abbrev fits16 (n : Nat) : Prop := n < 65536
abbrev fits32 (n : Nat) : Prop := n < 4294967296

abbrev ParcelRecord.wf (r : ParcelRecord) : Prop :=
  fits16 r.terminalTag ∧ fits8 r.service ∧ fits32 r.weight ∧ fits16 r.length ∧ fits16 r.width ∧ fits16 r.height ∧
    r.destination.length = 6 ∧ fits32 r.declaredValue ∧ fits8 r.pieceMark

abbrev ScreenEntry.wf (e : ScreenEntry) : Prop := fits8 e.length ∧ e.characters.length = 6

abbrev ScreenBody.wf (b : ScreenBody) : Prop :=
  fits8 b.kind ∧ fits8 b.inverse ∧ fits8 b.count ∧ b.entries.length = 16 ∧ (∀ e ∈ b.entries, e.wf)

abbrev ScreenRecord.wf (r : ScreenRecord) : Prop := fits16 r.terminalTag ∧ r.body.wf

abbrev ConfigRecord.wf (r : ConfigRecord) : Prop :=
  fits8 r.stationCount ∧ fits8 r.stationNumber ∧ fits16 r.day ∧ fits16 r.timeOfDay ∧ fits32 r.sequenceStart ∧
    r.networkPrefix.length = 2 ∧ fits16 r.expectedEdition ∧ fits8 r.openingFlag ∧ fits16 r.fetchTimeout ∧
    fits8 r.publishDelay ∧ fits16 r.watchdog

/-- A record kind byte that names neither PARCEL (00H) nor SCREEN (01H). -/
abbrev Submission.wf : Submission → Prop
  | .parcel r => r.wf
  | .screen r => r.wf
  | .unknownKind c => fits8 c ∧ 2 ≤ c

/-- A count of at most 16 fits its codes (R183 check 1); above 16 the frame is judged by its count alone, and carries
no codes here. -/
abbrev FlagList.wf (f : FlagList) : Prop :=
  fits8 f.count ∧ (if f.count ≤ 16 then f.codes.length = f.count else f.codes = []) ∧ (∀ c ∈ f.codes, fits8 c)

/-- The argument length that R182 gives a command code; the SUBMIT of a known kind and the CLEAR of up to 16 flags have
more than one. -/
def argumentLengthFits (code n : Nat) : Bool :=
  match code with
  | 1 => n == 21
  | 2 => n == 26 || n == 182
  | 3 | 4 | 5 | 10 => n == 1
  | 6 | 9 => n == 0
  | 7 => 1 ≤ n && n ≤ 17
  | 8 => n == 2
  | _ => false

/-- A frame that fails check 1 of R173, or a RESET of no known argument. A SUBMIT or CLEAR of a length that some record
kind or flag count has may still not fit its own. -/
abbrev UnknownFrame.wf : UnknownFrame → Prop
  | .code c => fits8 c ∧ (c = 0 ∨ 10 < c)
  | .length c n => 1 ≤ c ∧ c ≤ 10 ∧ fits16 n ∧ (argumentLengthFits c n = false ∨ c = 2 ∨ c = 7)
  | .resetArgument a => fits8 a ∧ a ≠ 1 ∧ a ≠ 2

/-- The canonical form of an image: addresses strictly rising below 65,536, and no entry of the value FFH that an
unlisted address reads as. -/
abbrev Flash.wf (f : Flash) : Prop :=
  f.Pairwise (fun a b => a.1 < b.1) ∧ (∀ c ∈ f, c.1 < Config.imageSize ∧ c.2 ≠ 0xFF)

abbrev Figures.wf (f : Figures) : Prop := fits32 f.weight ∧ fits32 f.litres ∧ fits16 f.pieces

/-- A queue count above 31 makes the frame faulty at every receiver (R152), so such a HANDOVER is never accepted. -/
abbrev HandoverBody.wf (b : HandoverBody) : Prop :=
  fits8 b.recipient ∧ fits16 b.lot ∧ b.figures.wf ∧ fits8 b.reclaimed ∧ b.queue.length ≤ 31 ∧ (∀ q ∈ b.queue, fits8 q)

abbrev FrameBody.wf : FrameBody → Prop
  | .handover b => b.wf
  | .reclaim l f | .tally l f | .notice l f => fits16 l ∧ f.wf
  | .fetch l | .stall l => fits16 l
  | .hello e _ => fits16 e
  | .unknown c => c.length < 256

/-- The sender's number has five bits in the header byte (R148). -/
abbrev HallFrame.wf (f : HallFrame) : Prop := f.sender < 32 ∧ f.body.wf

/-- A command a sender can form. -/
abbrev Instr.wf : Instr → Prop
  | .configure r => r.wf
  | .submit r => r.wf
  | .collect n | .peek n | .withdraw n => fits8 n
  | .clearSummary f => f.wf
  | .lotView l => fits16 l
  | .unknownCommand f => f.wf
  | .loadCompletes f | .loadFaults f => f.wf
  | .fetchTimerExpires (.home l) => fits16 l
  | .fetchTimerExpires (.entry n) | .publishTimerExpires n => n < Config.entryCount
  | .absenceTimerExpires n => n < Config.stationLimit
  | .handoverAccepted s b => (⟨s, .handover b⟩ : HallFrame).wf
  | .reclaimAccepted s l f => (⟨s, .reclaim l f⟩ : HallFrame).wf
  | .tallyAccepted s l f => (⟨s, .tally l f⟩ : HallFrame).wf
  | .fetchAccepted s l => (⟨s, .fetch l⟩ : HallFrame).wf
  | .stallAccepted s l => (⟨s, .stall l⟩ : HallFrame).wf
  | .noticeAccepted s l f => (⟨s, .notice l f⟩ : HallFrame).wf
  | .helloAccepted s e n => (⟨s, .hello e n⟩ : HallFrame).wf
  | .unknownKindFrameAccepted s c => (⟨s, .unknown c⟩ : HallFrame).wf
  | .status | .leave | .resetWarm | .resetFull | .commandDiscarded | .powerOnReset | .rstnRise | .ratePositionActs
  | .watchdogExpires | .clockAdvance | .faultTimerExpires | .beaconTimerExpires | .idleIntervalSeen | .transmitStart
  | .frameWinsLine | .readbackFailure | .readbackDuplicate | .frameTruncated | .frameRejected _ | .arbitrationLost => True

end Sys2Proof
end

