-- ==== Sys2Proof/Certificates/Slice0/Obligations.lean ====
section
/-! DEFINITION. The statements for the provers, one `def Obligations.<Name> : Prop` each. OBLIGATIONS.json lists them. -/

open Sys2Proof Sys2Proof.Machine

/-! ## The machine as a queue of commands -/

/-- A step runs the command at the front of the queue on the state with the queue's rest. Model's own queue (log entry
1). -/
def Obligations.StepRunsFrontCommand : Prop :=
  ∀ (c : Instr) (rest : List Instr) (s : State),
    step { s with pending := c :: rest } = exec c { s with pending := rest }

/-- With no command waiting, a step is one ms of the internal timebase: every running timer has one ms less, and nothing
else changes. The model's choice (log entry 2), while RSTN is low too (log entry 35). -/
def Obligations.IdleStepCountsOneMillisecond : Prop :=
  ∀ s : State, s.pending = [] → ∃ t, step s = .next t ∧
    t.timebase = s.timebase + 1 ∧
    t.clock = s.clock.map (fun c => ⟨c.minute, min (c.elapsed + 1) 60000⟩) ∧
    t.ring = { s.ring with watchdog := s.ring.watchdog.map (· - 1) } ∧
    t.home = s.home.map (fun r => { r with fetchTimer := r.fetchTimer.map (· - 1) }) ∧
    t.table = s.table.map (fun e =>
      { e with fetchTimer := e.fetchTimer.map (· - 1), publishTimer := e.publishTimer.map (· - 1) }) ∧
    t.line = { s.line with
      faultTimer := s.line.faultTimer.map (· - 1), beaconTimer := s.line.beaconTimer.map (· - 1)
      presence := s.line.presence.map (fun p => { p with absence := p.absence.map (· - 1) }) } ∧
    t.pending = [] ∧ t.held = s.held ∧ t.response = s.response ∧ t.station = s.station ∧
    t.configuration = s.configuration ∧ t.ordinal = s.ordinal ∧ t.unit = s.unit ∧ t.store = s.store ∧
    t.screen = s.screen ∧ t.sequence = s.sequence

/-- What reset leaves (R43, R55, R80, R95, R119, R162, R171, R180, R181). -/
def Obligations.ResetValues : Prop :=
  State.reset.station = .unconfigured ∧ State.reset.configuration = none ∧ State.reset.store = .empty ∧
  State.reset.screen = none ∧ State.reset.clock = none ∧ State.reset.sequence = none ∧ State.reset.home = [] ∧
  State.reset.unit = ⟨0, 0, 0, 0⟩ ∧
  State.reset.ring.slots.length = 8 ∧ (∀ x ∈ State.reset.ring.slots, x = ⟨.empty, none, none, none, none, none, none⟩) ∧
  State.reset.ring.put = 0 ∧ State.reset.ring.rate = 0 ∧ State.reset.ring.pendingCount = 0 ∧
  State.reset.ring.consignment = none ∧ State.reset.ring.watchdog = none ∧
  State.reset.table.length = 48 ∧ (∀ e ∈ State.reset.table, e.state = .free ∧ e.lot = none ∧ e.waiting = []) ∧
  State.reset.line.state = .off ∧ State.reset.line.hello = none ∧ State.reset.line.attempt = none ∧
  State.reset.line.faultTimer = none ∧ State.reset.line.beaconTimer = none ∧
  State.reset.line.presence.length = 32 ∧ (∀ p ∈ State.reset.line.presence, p = ⟨false, none⟩) ∧
  State.reset.attn = false

/-! ## Invariants -/

/-- The state after reset meets the invariants of Safety.lean. -/
def Obligations.InvariantsAtReset : Prop :=
  State.reset.InRange ∧ State.reset.BlocksAgree ∧ State.reset.RingFits ∧ State.reset.HomeDistinct ∧ State.reset.LotsFit

/-- Every step keeps every position, counter, clock and sequence counter in the range the manual gives it. The bound on
the ms already counted of a minute is the model's (log entry 2). -/
def Obligations.RangesKeptByEveryStep : Prop :=
  ∀ s t : State, s.InRange → step s = .next t → t.InRange

/-- Every step keeps the store, configuration, clock, sequence counter, screen and line in agreement with the station
state, and the line's timers, attempt record and transmission in agreement with the line state. The transmission held in
the line controller is the model's rendering of a frame on the line (log entry 5). -/
def Obligations.BlocksAgreeAfterEveryStep : Prop :=
  ∀ s t : State, s.BlocksAgree → step s = .next t → t.BlocksAgree

/-- Every step keeps the ring as the manual describes it: slots as their tags say (R57), the records not yet taken in
the pending-count slots from the rate position to the put position (R56), the open consignment as its GROUPED slots (R64
to R69), an empty ring outside READY (R175). -/
def Obligations.RingFitsAfterEveryStep : Prop :=
  ∀ s t : State, s.RingFits → step s = .next t → t.RingFits

/-- Every step keeps the home store's lots distinct (R98), and keeps the lot records as Safety.lean's LotsFit says: no
two entries name one lot and none names a lot homed here (R102), waiting lists in ring order on their own lot (R108),
figures held within the plan capacity (R103), nothing held outside service (R100). -/
def Obligations.HomeLotsStayDistinct : Prop :=
  (∀ s t : State, s.HomeDistinct → step s = .next t → t.HomeDistinct) ∧
  (∀ s t : State, s.LotsFit → step s = .next t → t.LotsFit)

/-! ## Rules of the whole machine -/

/-- R156: "DUPLICATE is left only by a full or power-on reset." -/
def Obligations.DuplicateLeftByFullResetsAlone : Prop :=
  ∀ (c : Instr) (s t : State), s.BlocksAgree → s.line.state = .duplicate → exec c s = .next t →
    c.isFullReset = false → t.line.state = .duplicate

/-- A flag of the summary once set is cleared by CLEAR and by a full or power-on reset alone (R92). -/
def Obligations.FlagsClearedByClearAndFullResetsAlone : Prop :=
  ∀ (c : Instr) (s t : State) (f : Flag), exec c s = .next t → c.isFullReset = false →
    (∀ l, c ≠ .clearSummary l) → flagSet s.unit.summary f = true → flagSet t.unit.summary f = true

/-- A DONE slot is changed by COLLECT and by a reset alone (R58, R72, R80). -/
def Obligations.DoneSlotsWaitForTheTerminal : Prop :=
  ∀ (c : Instr) (s t : State) (i : Nat), s.RingFits → exec c s = .next t → c.isFullReset = false → c ≠ .resetWarm →
    (∀ n, c ≠ .collect n) → (s.slot i).tag = .complete → t.slot i = s.slot i

/-- The configuration record and a LOADED store's content are left as they are, and the sequence counter never falls, by
every command but a full or power-on reset (R27, R83, R166, R171, R177). -/
def Obligations.OneConfigurationThroughout : Prop :=
  ∀ (c : Instr) (s t : State), s.BlocksAgree → exec c s = .next t → c.isFullReset = false →
    (∀ k, s.configuration = some k → t.configuration = some k) ∧
    (∀ f, s.store = .loaded f → t.store = .loaded f) ∧
    (∀ n, s.sequence = some n → ∃ m, t.sequence = some m ∧ n ≤ m)

/-- R99: "An ENDED record stays ENDED until the home store is cleared." Its final figures stay too (R114). -/
def Obligations.EndedRecordsStayEnded : Prop :=
  ∀ (c : Instr) (s t : State) (r : HomeRecord), s.HomeDistinct → s.station ≠ .loading → exec c s = .next t →
    c.isFullReset = false → r ∈ s.home → r.state = .ended →
    ∃ r' ∈ t.home, r'.lot = r.lot ∧ r'.state = .ended ∧ r'.figures = r.figures

/-- ATTN is asserted while a slot is DONE or the line is FAULTED or DUPLICATE, and RSTN is high (R79, R179, R181); while
RSTN is low no command and no event but the reset itself and the rise of RSTN changes anything, save that a port command
leaves no response. TDO carries the idle filler FFH while a command comes in, while RSTN is low and while no response is
due, and the response frame and then the filler otherwise (R172, R181, R183). How long a response is kept, and that a
held port leaves none, is the model's (log entry 8). -/
def Obligations.AttnAndTheHeldEngine : Prop :=
  (∀ s : State, s.attn = true ↔
    s.held = false ∧ ((∃ x ∈ s.ring.slots, x.tag = .complete) ∨ s.line.state = .faulted ∨ s.line.state = .duplicate)) ∧
  (∀ (c : Instr) (s : State), s.held = true → c ≠ .powerOnReset → c ≠ .rstnRise →
    (c.fromTerminal = true → exec c s = .next { s with response := none }) ∧
    (c.fromTerminal = false → exec c s = .next s)) ∧
  (∀ (s : State) (k : Nat),
    (s.held = true ∨ s.response = none → s.tdoByte k = 0xFF) ∧
    (∀ r, s.held = false → s.response = some r →
      (k < (responseBytes r).length → (responseBytes r)[k]? = some (s.tdoByte k)) ∧
      ((responseBytes r).length ≤ k → s.tdoByte k = 0xFF))) ∧
  (∀ (s : State) (sent n : Nat), (s.tdo sent n).length = sent + n ∧
    (∀ k, k < sent → (s.tdo sent n)[k]? = some 0xFF) ∧
    (∀ k, k < n → (s.tdo sent n)[sent + k]? = some (s.tdoByte k)))

/-! ## Frames of bytes -/

/-- Every terminal command that its layout can carry is read back from its bytes, whatever bytes follow in the same
select period (R172, R182, R183). A RESET of no known argument is carried by UNKNOWN_COMMAND (log entry 10). -/
def Obligations.PortCommandsRoundTrip : Prop :=
  ∀ (i : Instr) (rest : Bytes), i.fromTerminal = true → i.wf → i ≠ .commandDiscarded →
    decodeCommand (encodeCommand i ++ rest) = i

/-- Every hall line frame that its layout can carry passes a receiver's judgement and is read back from its bytes (R148,
R152, R186). -/
def Obligations.HallFramesRoundTrip : Prop :=
  ∀ f : HallFrame, f.wf → decodeFrame (frameBytes f) = some f

/-! ## Rating arithmetic -/

/-- R6, what each mode gives: DOWN the quotient, UP the least whole number not below the exact quotient, HALF-UP and
HALF-EVEN a nearest whole number, the upper and the even one at a tie. -/
def Obligations.RoundingByMode : Prop :=
  ∀ n q : Nat, 0 < q →
    (roundBy .down n q * q ≤ n ∧ n < roundBy .down n q * q + q) ∧
    (n ≤ roundBy .up n q * q ∧ roundBy .up n q * q < n + q) ∧
    (2 * n < 2 * (roundBy .halfUp n q * q) + q ∧ 2 * (roundBy .halfUp n q * q) ≤ 2 * n + q) ∧
    (2 * n ≤ 2 * (roundBy .halfEven n q * q) + q ∧ 2 * (roundBy .halfEven n q * q) ≤ 2 * n + q) ∧
    (2 * (n % q) = q → roundBy .halfEven n q % 2 = 0) ∧
    (∀ m, n % q = 0 → roundBy m n q * q = n)

/-- The rating of one record (R3 to R22): the validity checks, the zone, the screen, then the stages from B, the band
charge in cents. With no value above the money limit the result holds each stage's value and the charge is the rounding
of the total. With one above it the record is refused Overflow, Inexact as the stages up to the failing one rounded
(R18; log entry 23 for stage J); or, under the mask, it is RATED Clamped with the saturated values of R19: the base at
the limit, the fuel from 9,999,999 cents, each later failing value at the limit, the total at the limit. Of a RATED
record, unclamped components add up to the total. -/
def Obligations.RatedComponentsAddUp : Prop :=
  ∀ (t : Tariff) (sc : Screen) (masks : RatingMasks) (n : Option Nat) (p : ParcelRecord) (r : RatingResult)
    (fs : List Flag), rateRecord t sc masks n p = (r, fs) →
    let service : Option RateSection := match p.service with
      | 0 => some t.economy | 1 => some t.standard | 2 => some t.priority | _ => none
    let longest := max p.length (max p.width p.height)
    let girth := longest + 2 * (p.length + p.width + p.height - longest)
    let valid : Prop := (1 ≤ p.weight ∧ p.weight ≤ 70000) ∧ (∀ x ∈ [p.length, p.width, p.height], 1 ≤ x ∧ x ≤ 2000) ∧
      p.declaredValue ≤ 5000000 ∧ p.pieceMark ≤ 3 ∧ girth ≤ 4000 ∧
      (p.destination.length = 6 ∧ ∀ b ∈ p.destination, 0x30 ≤ b.toNat ∧ b.toNat ≤ 0x39) ∧
      ∃ e, service = some e ∧ (p.declaredValue = 0 ∨ e.insuranceAllowed = true)
    (¬ valid → r.refusal = some .invalid ∧ fs = [.invalid]) ∧
    (valid → ∀ (z : ZoneEntry) (e : RateSection), t.zones[ofDigits (p.destination.take 3)]? = some z → service = some e →
      (z.zone = none → r.refusal = some .noService ∧ r.zone = none ∧ fs = [.noService]) ∧
      (∀ zone, z.zone = some zone →
        let restricted := sc.restricts p.destination
        (restricted = true → masks.restricted = false →
          r.refusal = some .restricted ∧ r.zone = some zone ∧ r.route = z.route ∧ fs = [.restricted]) ∧
        (restricted = false ∨ masks.restricted = true →
          let volume := (p.length + 9) / 10 * ((p.width + 9) / 10) * ((p.height + 9) / 10)
          let w := if e.divisor = 0 then p.weight else max p.weight ((volume * 1000 + (e.divisor - 1)) / e.divisor)
          r.zone = some zone ∧ r.route = z.route ∧ r.remote = z.remote ∧ r.inspect = restricted ∧ r.volume = volume ∧
          r.litres = (volume + 999) / 1000 ∧ r.chargeableWeight = w ∧
          (Flag.restricted ∈ fs ↔ restricted = true) ∧ Flag.invalid ∉ fs ∧ Flag.noService ∉ fs ∧
          (Flag.inexact ∈ fs ↔ r.inexact = true) ∧
          (∀ cents, e.Charges zone w cents →
            let base := cents * 100
            let fuel := roundBy t.mode (cents * e.fuel) 100
            let fixed := 100 * ((if 1200 < longest ∨ 3000 < girth then e.surcharges.oversize else 0) +
              (if z.remote = true then e.surcharges.remote else 0) +
              (if p.options.getLsbD 0 = true then e.surcharges.signature else 0) +
              (if p.options.getLsbD 1 = true then e.surcharges.saturday else 0) +
              (if p.options.getLsbD 2 = true then e.surcharges.fragile else 0) +
              (if restricted = true then e.surcharges.restricted else 0))
            let excess := (p.declaredValue - e.freeThreshold) * e.insuranceRate
            let insurance := if p.declaredValue ≤ e.freeThreshold then 0
              else max (roundBy t.mode excess 100) (e.minimumPremium * 100)
            let sum := base + fuel + fixed + insurance
            let rate := match n with | none => 0 | some k => t.discounts.getD (k - 2) 0
            let discount := roundBy t.mode (sum * rate) 10000
            let tax := roundBy t.mode ((sum - discount) * e.tax) 10000
            let total := sum - discount + tax
            let within : Prop := ∀ v ∈ [base, fuel, fixed, insurance, sum, total], v ≤ 999999900
            (within → r.refusal = none ∧ r.clamped = false ∧ r.base = base ∧ r.fuel = fuel ∧ r.fixed = fixed ∧
              r.insurance = insurance ∧ r.discount = discount ∧ r.tax = tax ∧ r.total = total ∧
              r.charge = roundBy t.mode total 100 ∧
              r.direction = (if total % 100 = 0 then .exactly else if r.charge = total / 100 + 1 then .up else .down) ∧
              (r.inexact = true ↔ cents * e.fuel % 100 ≠ 0 ∨ (e.freeThreshold < p.declaredValue ∧ excess % 100 ≠ 0) ∨
                sum * rate % 10000 ≠ 0 ∨ (sum - discount) * e.tax % 10000 ≠ 0 ∨ total % 100 ≠ 0) ∧
              Flag.overflow ∉ fs) ∧
            (¬ within → Flag.overflow ∈ fs ∧
              (masks.overflow = false → r.refusal = some .overflow ∧
                (r.inexact = true ↔
                  (base ≤ 999999900 ∧ cents * e.fuel % 100 ≠ 0) ∨
                  ((∀ v ∈ [base, fuel, fixed], v ≤ 999999900) ∧ e.freeThreshold < p.declaredValue ∧ excess % 100 ≠ 0) ∨
                  ((∀ v ∈ [base, fuel, fixed, insurance, sum], v ≤ 999999900) ∧
                    (sum * rate % 10000 ≠ 0 ∨ (sum - discount) * e.tax % 10000 ≠ 0)))) ∧
              (masks.overflow = true →
                let cap (v : Nat) : Nat := min v 999999900
                let capCents := if base ≤ 999999900 then cents else 9999999
                let capFuel := cap (roundBy t.mode (capCents * e.fuel) 100)
                let capSum := cap (cap base + capFuel + cap fixed + cap insurance)
                let capDiscount := roundBy t.mode (capSum * rate) 10000
                let capTax := roundBy t.mode ((capSum - capDiscount) * e.tax) 10000
                r.refusal = none ∧ r.clamped = true ∧ r.base = cap base ∧ r.fuel = capFuel ∧ r.fixed = cap fixed ∧
                r.insurance = cap insurance ∧ r.discount = capDiscount ∧ r.tax = capTax ∧ r.total = 999999900 ∧
                r.charge = 9999999 ∧ r.direction = .exactly ∧
                (r.inexact = true ↔ capCents * e.fuel % 100 ≠ 0 ∨
                  (e.freeThreshold < p.declaredValue ∧ excess % 100 ≠ 0) ∨ capSum * rate % 10000 ≠ 0 ∨
                  (capSum - capDiscount) * e.tax % 10000 ≠ 0))))))) ∧
    ((∀ d ∈ t.discounts, d ≤ 5000) → r.refusal = none →
      r.charge ≤ 9999999 ∧ r.total ≤ 999999900 ∧
      (r.clamped = false →
        r.base + r.fuel + r.fixed + r.insurance + r.tax = r.total + r.discount ∧
        r.discount ≤ r.base + r.fuel + r.fixed + r.insurance ∧
        (n = none → r.discount = 0) ∧ r.charge = roundBy t.mode r.total 100 ∧ Flag.overflow ∉ fs) ∧
      (r.clamped = true →
        masks.overflow = true ∧ r.total = 999999900 ∧ r.charge = 9999999 ∧ r.direction = .exactly ∧ Flag.overflow ∈ fs))

/-- R25, R88: a consignment refused at rating has one offender, with its own rating's reason; the pieces before it were
rated and are refused ConsignmentPeer, those after it were not rated. That an earlier piece keeps the other fields of
its result and a later one has none is log entry 22. -/
def Obligations.OneOffenderInARefusedConsignment : Prop :=
  ∀ (t : Tariff) (sc : Screen) (masks : RatingMasks) (n : Nat) (ps : List ParcelRecord)
    (rs : List (Option RatingResult)) (fs : List Flag),
    ratePieces t sc masks n ps = (rs, fs, false) →
    rs.length = ps.length ∧ ∃ k, k < ps.length ∧
      (∀ i p, i < k → ps[i]? = some p → ∃ r gs, rateRecord t sc masks (some n) p = (r, gs) ∧ r.refusal = none ∧
        rs[i]? = some (some { r with refusal := some .consignmentPeer })) ∧
      (∃ p r gs why, ps[k]? = some p ∧ rateRecord t sc masks (some n) p = (r, gs) ∧ rs[k]? = some (some r) ∧
        r.refusal = some why ∧ (why = .invalid ∨ why = .noService ∨ why = .restricted ∨ why = .overflow)) ∧
      (∀ i, k < i → i < ps.length → rs[i]? = some none)

/-! ## Screening and numbers -/

/-- R45, R46, R47: an exact screen compares the first three or six characters of the destination with each entry; a hash
screen reads the bit of the destination's index. -/
def Obligations.ScreensClassify : Prop :=
  (∀ (inverse : Bool) (es : List Place) (d : Bytes),
    (Screen.places inverse es).restricts d = true ↔
      (inverse = false ∧ ∃ e ∈ es, d.take e.length = e.digits) ∨ (inverse = true ∧ ∀ e ∈ es, d.take e.length ≠ e.digits)) ∧
  (∀ (table : BitVec 512) (p s : Nat), p < 1000 → s < 1000 →
    (Screen.hashed table).restricts (toDigits 3 p ++ toDigits 3 s) = table.getLsbD ((p * 41 + s) % 512))

/-- R164: the check digit of ten digits, and that a change of any one digit changes it. -/
def Obligations.CheckDigitFindsOneWrongDigit : Prop :=
  (∀ a b c d e f g h i j : Nat, a < 10 → b < 10 → c < 10 → d < 10 → e < 10 → f < 10 → g < 10 → h < 10 → i < 10 → j < 10 →
    checkDigit ([a, b, c, d, e, f, g, h, i, j].map (fun n => BitVec.ofNat 8 (0x30 + n))) =
      (10 - (7 * a + 3 * b + c + 7 * d + 3 * e + f + 7 * g + 3 * h + i + 7 * j) % 10) % 10) ∧
  (∀ (ds : Bytes) (k : Nat) (x : Byte), ds.length = 10 → (∀ y ∈ ds, isDigit y = true) → isDigit x = true →
    (h : k < ds.length) → ds[k] ≠ x → checkDigit (ds.set k x) ≠ checkDigit ds)

/-- R163: a tracking number has 13 characters, and two sequences of one configuration never share one. -/
def Obligations.TrackingNumbersDiffer : Prop :=
  ∀ (c : Configuration) (m n : Nat), c.networkPrefix.length = 2 → m < 100000 → n < 100000 →
    (trackingNumber c m).length = 13 ∧ (trackingNumber c m = trackingNumber c n → m = n)

/-- R166, R168: a request labelled whole gives its members consecutive sequences from the counter's value in ring order,
every piece of a consignment the first piece's number, and the counter rises by the piece count. -/
def Obligations.MembersNumberedInRingOrder : Prop :=
  ∀ (s : State) (q : Request) (d : DispatchFields) (n : Nat), s.sequence = some n → q.members.Nodup →
    (∀ i ∈ q.members, (s.slot i).tag = .seeking ∧ ∃ p, (s.slot i).record = some (.parcel p)) →
    (s.labelRequest q d).sequence = some (n + q.members.length) ∧
    (s.labelRequest q d).unit.labelsIssued =
      (if q.members = [] then s.unit.labelsIssued else min (s.unit.labelsIssued + q.members.length) 65535) ∧
    (∀ j, j ∉ q.members → (s.labelRequest q d).slot j = s.slot j) ∧
    (∀ k i, q.members[k]? = some i →
      ((s.labelRequest q d).slot i).tag = .complete ∧ ((s.labelRequest q d).slot i).rating = (s.slot i).rating ∧
      ∃ l, ((s.labelRequest q d).slot i).label = some l ∧ l.refusal = none ∧
        l.trackingNumber = trackingNumber s.config (n + k) ∧
        l.consignmentNumber =
          (if q.members.length ≤ 1 then List.replicate 13 0x20 else trackingNumber s.config n))

/-! ## The load -/

/-- R29, R32: the header checks in their order, each with its fault code; past the header, the load faults with the
first fault of the required kinds in their order, and completes when there is none. That check 1 is made on bytes 0 to
12, the ones that are read, is log entry 29; what a byte not listed in the flash reads as is log entry 6. -/
def Obligations.RequiredKindsInOrder : Prop :=
  ∀ (c : Configuration) (f : Flash),
    let b (k : Nat) : Nat := (readFlash f k).toNat
    let edition := b 4 * 256 + b 5
    let first := b 7 * 256 + b 8
    let last := b 9 * 256 + b 10
    let silent : Prop := (∀ k, k < 13 → b k = 0xFF) ∨ (∀ k, k < 13 → b k = 0)
    let marked : Prop := b 0 = 0x43 ∧ b 1 = 0x56 ∧ b 2 = 0x32 ∧ b 3 = 0x54
    let good : Prop := 1 ≤ edition ∧ b 6 ≤ 3 ∧ (1 ≤ first ∧ first ≤ 366) ∧ (1 ≤ last ∧ last ≤ 366) ∧ first ≤ last
    let expected : Prop := c.expectedEdition = 0 ∨ c.expectedEdition = edition
    let inForce : Prop := first ≤ c.day ∧ c.day ≤ last
    (silent → loadImage c f = .error .flashSilent) ∧
    (¬ silent → ¬ marked → loadImage c f = .error .badMarker) ∧
    (¬ silent → marked → ¬ good → loadImage c f = .error .badHeader) ∧
    (¬ silent → marked → good → ¬ expected → loadImage c f = .error .edition) ∧
    (¬ silent → marked → good → expected → ¬ inForce → loadImage c f = .error .dayRange) ∧
    (¬ silent → marked → good → expected → inForce →
      ∃ h, checkHeader c (readBytes f 0 16) = .ok h ∧ h.edition = edition ∧ h.firstDay = first ∧ h.lastDay = last ∧
        h.first = b 11 * 256 + b 12 ∧ modeOf (b 6) = some h.mode) ∧
    (∀ h : ImageHeader, checkHeader c (readBytes f 0 16) = .ok h →
      let fault := requiredKinds.findSome? (sectionFault f (walk f 16 h.first))
      (∀ e, fault = some e → loadImage c f = .error e) ∧
      (fault = none → ∃ t, loadImage c f = .ok t ∧ t.edition = h.edition ∧ t.mode = h.mode ∧ t.firstDay = h.firstDay ∧
        t.lastDay = h.lastDay))

/-- R31: the walk takes the section at the first offset when it is in bounds, and goes on along the next offsets while
the next section stands at a higher offset and in bounds and fewer than sixteen are taken; it takes none out of bounds,
and ends where one of these fails. -/
def Obligations.WalkMovesForward : Prop :=
  ∀ (f : Flash) (o : Nat),
    let chain := walk f 16 o
    let fits (k : Nat) : Prop := 16 ≤ k ∧ k + 8 + (readSection f k).length ≤ 65536
    chain.length ≤ 16 ∧
    (∀ c ∈ chain, c = readSection f c.offset ∧ 16 ≤ c.offset ∧ c.offset + 8 + c.length ≤ 65536) ∧
    (fits o → chain[0]? = some (readSection f o)) ∧
    (¬ fits o → chain = []) ∧
    (∀ c, chain[0]? = some c → c.offset = o) ∧
    (∀ i a, chain[i]? = some a → i + 1 < 16 → a.offset < a.next → fits a.next →
      chain[i + 1]? = some (readSection f a.next)) ∧
    (∀ i a, chain[i]? = some a → (15 ≤ i ∨ a.next ≤ a.offset ∨ ¬ fits a.next) → chain.length = i + 1) ∧
    (∀ i a b, chain[i]? = some a → chain[i + 1]? = some b → b.offset = a.next ∧ a.offset < b.offset)

/-- R34, R37 to R40: what a loaded image holds: 1,000 zones, seven discounts, at most 1,024 departures in rising lot ID
order, each within its ranges and homed below the station count. -/
def Obligations.LoadedPlanIsConsistent : Prop :=
  ∀ (c : Configuration) (f : Flash) (t : Tariff), 1 ≤ c.stationCount → loadImage c f = .ok t →
    t.zones.length = 1000 ∧ t.discounts.length = 7 ∧ (∀ d ∈ t.discounts, d ≤ 5000) ∧ t.plan.length ≤ 1024 ∧
    (t.plan.map (·.lot)).Pairwise (· < ·) ∧
    t.plan.Pairwise (fun a b => a.route = b.route → a.cutOff < b.cutOff) ∧
    (∀ d ∈ t.plan, d.home < c.stationCount ∧ d.route ≤ 239 ∧ d.index ≤ 5 ∧ d.cutOff ≤ 1439 ∧
      1000 ≤ d.capacity.weight ∧ d.capacity.weight ≤ 30000000 ∧ 1 ≤ d.capacity.litres ∧ d.capacity.litres ≤ 100000 ∧
      1 ≤ d.capacity.pieces ∧ d.capacity.pieces ≤ 4000)

/-- R41, R49, R100: LOAD_COMPLETES of a LOADING station whose image passes every check. The image is the command's
operand (log entry 6). -/
def Obligations.LoadCompletes : Prop :=
  ∀ (f : Flash) (s : State) (t : Tariff), s.held = false → s.station = .loading → loadImage s.config f = .ok t →
    ∃ u, exec (.loadCompletes f) s = .next u ∧
      u.store = .loaded t ∧ u.screen = some t.defaultScreen ∧ u.station = .ready ∧
      u.line = { s.line with state := .listen } ∧
      u.home.map (·.lot) = (t.plan.filter (fun d => d.home == s.own)).map (·.lot) ∧
      (∀ r ∈ u.home, ∃ d ∈ t.plan, d.home = s.own ∧ r.lot = d.route * 8 + d.index ∧
        r.state = (if s.config.opening then .atHome else .unknown) ∧
        r.figures = (if s.config.opening then d.capacity else ⟨0, 0, 0⟩) ∧
        r.lastSeen = none ∧ r.reclaimed = false ∧ r.queue = [] ∧ r.handingOver = false ∧ r.attempts = 0 ∧
        r.fetchTimer = none ∧ r.waiting = [] ∧
        (r.frame.isSome = true ↔ s.config.opening = true ∧ d.cutOff ≤ s.minute) ∧
        (∀ g, r.frame = some g → g.kind = .tally)) ∧
      u.ring = s.ring ∧ u.unit = s.unit ∧ u.table = s.table ∧ u.clock = s.clock ∧ u.sequence = s.sequence ∧
      u.configuration = s.configuration ∧ u.response = s.response

/-- R42: LOAD_FAULTS of a LOADING station at the first check that fails. The image is the command's operand (log entry
6). -/
def Obligations.LoadFaults : Prop :=
  ∀ (f : Flash) (s : State) (e : LoadFault), s.held = false → s.station = .loading → loadImage s.config f = .error e →
    exec (.loadFaults f) s = .next { s with
      store := .faulted e
      station := .tariffFault
      unit := { s.unit with summary := s.unit.summary ||| BitVec.twoPow 16 11 } }

/-! ## Terminal commands -/

/-- CONFIGURE in UNCONFIGURED: the fields in the order of R176, the first outside its values named in BAD_ARG; a record
that passes is stored with its defaults, the clock and sequence counter set, the lot table emptied, the load begun (R28,
R176, R177). -/
def Obligations.ConfigureStoresOrNamesTheBadField : Prop :=
  ∀ (r : ConfigRecord) (s : State), s.held = false → s.station = .unconfigured →
    let fields : List Bool :=
      [ 1 ≤ r.stationCount && r.stationCount ≤ 32, r.stationNumber ≤ 31 && r.stationNumber < r.stationCount,
        1 ≤ r.day && r.day ≤ 366, r.timeOfDay ≤ 1439, r.sequenceStart ≤ 99999,
        r.networkPrefix.length == 2 && r.networkPrefix.all (fun b => 0x41 ≤ b.toNat && b.toNat ≤ 0x5A),
        r.expectedEdition ≤ 65535, r.openingFlag == 0 || r.openingFlag == 1,
        r.fetchTimeout == 0 || (100 ≤ r.fetchTimeout && r.fetchTimeout ≤ 1600 && r.fetchTimeout % 100 == 0),
        r.publishDelay ≤ 15, r.watchdog == 0 || (30 ≤ r.watchdog && r.watchdog ≤ 600 && r.watchdog % 10 == 0),
        r.maskClearing.toNat ≤ 7 ]
    (∀ k, fields[k]? = some false → (∀ j, j < k → fields[j]? = some true) →
      exec (.configure r) s = .next { s with response := some ⟨.badArg, .failedCheck 4 (k + 1)⟩ }) ∧
    ((∀ b ∈ fields, b = true) →
      exec (.configure r) s = .next { s with
        configuration := some {
          stationCount := r.stationCount, stationNumber := r.stationNumber, day := r.day, timeOfDay := r.timeOfDay
          sequenceStart := r.sequenceStart, networkPrefix := r.networkPrefix, expectedEdition := r.expectedEdition
          opening := r.openingFlag == 1
          fetchTimeout := if r.fetchTimeout = 0 then 400 else r.fetchTimeout
          publishDelay := if r.publishDelay = 0 then 4 else r.publishDelay
          watchdog := if r.watchdog = 0 then 180 else r.watchdog
          restrictedMask := !r.maskClearing.getLsbD 0, overflowMask := !r.maskClearing.getLsbD 1
          noDispatchMask := !r.maskClearing.getLsbD 2 }
        clock := some ⟨r.timeOfDay, 0⟩
        sequence := some r.sequenceStart
        table := List.replicate 48 LotEntry.cleared
        station := .loading
        store := .loading
        response := some ⟨.ok, .nothing⟩ })

/-- R175: the commands that a station state does not take are answered BUSY in LOADING and STATE elsewhere, and change
nothing. A RESET of no known argument is answered as RESET FULL is (log entry 10). The empty body of a BUSY or STATE
response is log entry 40. -/
def Obligations.CommandsNotTakenAreAnswered : Prop :=
  ∀ (c : Instr) (s : State), s.held = false →
    (s.station = .loading → c.fromTerminal = true → c ≠ .status → c ≠ .commandDiscarded →
      (∀ k, c ≠ .unknownCommand (.code k)) → (∀ k n, c ≠ .unknownCommand (.length k n)) →
      exec c s = .next { s with response := some ⟨.busy, .nothing⟩ }) ∧
    ((s.station = .unconfigured ∧ ((∃ r, c = .submit r) ∨ (∃ l, c = .lotView l) ∨ c = .leave ∨ c = .resetWarm)) ∨
      (s.station = .ready ∧ ∃ r, c = .configure r) ∨
      (s.station = .tariffFault ∧
        ((∃ r, c = .configure r) ∨ (∃ r, c = .submit r) ∨ (∃ l, c = .lotView l) ∨ c = .leave)) ∨
      ((s.station = .leaving ∨ s.station = .serving) ∧
        ((∃ r, c = .configure r) ∨ (∃ r, c = .submit r) ∨ c = .leave)) →
      exec c s = .next { s with response := some ⟨.state, .nothing⟩ })

/-- Frames that name no command or do not fit: BAD_ARG with the failing check, the state left as it was (R60, R172,
R173, R183). A partial command leaves no response; a truncated hall line frame leaves everything (R152, R172). A RESET
of no known argument is carried by UNKNOWN_COMMAND (log entry 10); no response after a partial command is log entry 8.
-/
def Obligations.BadFramesChangeNothing : Prop :=
  ∀ s : State, s.held = false →
    (∀ k, exec (.unknownCommand (.code k)) s = .next { s with response := some ⟨.badArg, .failedCheck 1 0⟩ }) ∧
    (∀ k n, exec (.unknownCommand (.length k n)) s = .next { s with response := some ⟨.badArg, .failedCheck 1 0⟩ }) ∧
    (∀ a, s.station ≠ .loading →
      exec (.unknownCommand (.resetArgument a)) s = .next { s with response := some ⟨.badArg, .failedCheck 4 0⟩ }) ∧
    (∀ k, s.station = .ready →
      exec (.submit (.unknownKind k)) s = .next { s with response := some ⟨.badArg, .failedCheck 4 0⟩ }) ∧
    (∀ i c, s.station ≠ .loading → 8 ≤ i → (c = .collect i ∨ c = .peek i ∨ c = .withdraw i) →
      exec c s = .next { s with response := some ⟨.badArg, .failedCheck 4 0⟩ }) ∧
    exec .commandDiscarded s = .next { s with response := none } ∧
    exec .frameTruncated s = .next s

/-- SUBMIT in READY places the record QUEUED at the put position, or answers FULL and changes nothing (R59, R60). The
empty body of a FULL response is log entry 40. -/
def Obligations.SubmitPlacesOrAnswersFull : Prop :=
  ∀ (s : State) (c : Instr) (r : Record), s.held = false → s.station = .ready →
    ((∃ p, c = .submit (.parcel p) ∧ r = .parcel p) ∨ (∃ q, c = .submit (.screen q) ∧ r = .screen q)) →
    ((s.slot s.ring.put).tag = .empty ∧ s.ring.pendingCount < 8 →
      exec c s = .next { s with
        ring := { s.ring with
          slots := s.ring.slots.set s.ring.put ⟨.queued, some r, none, none, none, none, none⟩
          put := (s.ring.put + 1) % 8
          pendingCount := s.ring.pendingCount + 1 }
        response := some ⟨.ok, .slotIndex s.ring.put⟩ }) ∧
    (¬ ((s.slot s.ring.put).tag = .empty ∧ s.ring.pendingCount < 8) →
      exec c s = .next { s with response := some ⟨.full, .nothing⟩ })

/-- COLLECT returns a DONE slot's result, with every member of its consignment, and empties those slots; any other slot
is NOT_READY (R73). The empty body of a NOT_READY response is log entry 40. -/
def Obligations.CollectReturnsAndEmpties : Prop :=
  ∀ (s : State) (i : Nat), s.held = false → s.station ≠ .loading → i < 8 →
    let members := match (s.slot i).link with | some l => l.members | none => [i]
    ((s.slot i).tag = .complete → (∀ j ∈ members, (s.slot j).tag = .complete) →
      ∃ u, exec (.collect i) s = .next u ∧
        (∀ j, u.slot j = if j ∈ members then ⟨.empty, none, none, none, none, none, none⟩ else s.slot j) ∧
        (∀ r, (s.slot i).screenResult = some r → u.response = some ⟨.ok, .screen r⟩) ∧
        ((s.slot i).screenResult = none →
          u.response = some ⟨.ok, .labels (members.filterMap (fun j => (s.slot j).label))⟩) ∧
        u = { s with ring := { s.ring with slots := u.ring.slots }, response := u.response }) ∧
    ((s.slot i).tag ≠ .complete → exec (.collect i) s = .next { s with response := some ⟨.notReady, .nothing⟩ })

/-- PEEK returns the slot's view and changes nothing else (R74). The reason shown for a withdrawn screen record is log
entry 25. -/
def Obligations.PeekShowsTheSlot : Prop :=
  ∀ (s : State) (i : Nat), s.held = false → s.station ≠ .loading → i < 8 →
    ∃ v, exec (.peek i) s = .next { s with response := some ⟨.ok, .slot v⟩ } ∧
      v.tag = (s.slot i).tag ∧
      ((s.slot i).record = none → v.kind = none ∧ v.terminalTag = 0) ∧
      (∀ p, (s.slot i).record = some (.parcel p) → v.kind = some 0 ∧ v.terminalTag = p.terminalTag) ∧
      (∀ r, (s.slot i).record = some (.screen r) → v.kind = some 1 ∧ v.terminalTag = r.terminalTag) ∧
      ((s.slot i).link = none → v.pieceIndex = 0 ∧ v.memberCount = 0) ∧
      (∀ l, (s.slot i).link = some l → v.pieceIndex = l.piece ∧
        ((s.slot i).tag ≠ .grouped → v.memberCount = l.members.length) ∧
        ((s.slot i).tag = .grouped → ∀ c, s.ring.consignment = some c → v.memberCount = c.members.length)) ∧
      ((s.slot i).tag ≠ .complete → v.outcome = .notDone ∧ v.reason = none) ∧
      ((s.slot i).tag = .complete →
        (∀ l, (s.slot i).screenResult = none → (s.slot i).label = some l →
          v.outcome = (if l.refusal = none then .labelled else .refused) ∧ v.reason = l.refusal) ∧
        (∀ r, (s.slot i).screenResult = some r →
          (r.outcome = .applied → v.outcome = .applied) ∧ (∀ w, r.outcome = .rejected w → v.outcome = .rejected) ∧
          (r.outcome = .withdrawn → v.outcome = .refused ∧ v.reason = some .withdrawn)))

/-- WITHDRAW of a QUEUED slot completes that slot alone; of an EMPTY or DONE slot it is answered STATE (R54, R75, R78).
The empty body of a STATE response is log entry 40. -/
def Obligations.WithdrawOfOneSlot : Prop :=
  ∀ (s : State) (i : Nat), s.held = false → s.station ≠ .loading → i < 8 →
    ((s.slot i).tag = .empty ∨ (s.slot i).tag = .complete →
      exec (.withdraw i) s = .next { s with response := some ⟨.state, .nothing⟩ }) ∧
    ((s.slot i).tag = .queued → ∀ r, (s.slot i).record = some r →
      ∃ u, exec (.withdraw i) s = .next u ∧ u.response = some ⟨.ok, .nothing⟩ ∧
        (∀ p, r = .parcel p → Slot.RefusedAs (s.slot i) (u.slot i) .withdrawn) ∧
        (∀ q, r = .screen q → u.slot i =
          { s.slot i with tag := .complete, screenResult := some ⟨q.terminalTag, .withdrawn⟩ }) ∧
        (∀ j, j ≠ i → u.slot j = s.slot j) ∧
        u.ring = { s.ring with slots := u.ring.slots } ∧
        u.unit.recordsRefused = min (s.unit.recordsRefused + 1) 65535 ∧
        u.unit.labelsIssued = s.unit.labelsIssued ∧ u.unit.framesRejected = s.unit.framesRejected ∧
        SetExactly s.unit.summary u.unit.summary [.withdrawn] ∧ State.SameOutsideRing s u)

/-- A WITHDRAW of a GROUPED slot and the watchdog's expiry refuse the open consignment whole (R70, R76). The expiry acts
whenever the watchdog runs (log entry 3). -/
def Obligations.OpenConsignmentRefusedWhole : Prop :=
  ∀ (s : State) (c : Consignment), s.held = false → s.RingFits → s.ring.consignment = some c →
    (∀ i, i ∈ c.members → s.station ≠ .loading →
      ∃ u, exec (.withdraw i) s = .next u ∧ u.response = some ⟨.ok, .nothing⟩ ∧
        State.ConsignmentRefused s u c.members .withdrawn .withdrawn ∧ State.SameOutsideRing s u ∧
        u.ring = { s.ring with slots := u.ring.slots, consignment := none, watchdog := none }) ∧
    (∃ u, exec .watchdogExpires s = .next u ∧ u.response = s.response ∧
        State.ConsignmentRefused s u c.members .consignmentIncomplete .consignmentIncomplete ∧
        State.SameOutsideRing s u ∧
        u.ring = { s.ring with slots := u.ring.slots, consignment := none, watchdog := none })

/-- A WITHDRAW of a SEEKING slot refuses its parcel, or every member of its consignment, and takes its requests off
every waiting list (R77, R142). -/
def Obligations.WithdrawOfASeekingSlot : Prop :=
  ∀ (s : State) (i : Nat), s.held = false → s.station ≠ .loading → i < 8 → (s.slot i).tag = .seeking →
    let members := match (s.slot i).link with | some l => l.members | none => [i]
    members.Nodup →
    (∀ j ∈ members, (s.slot j).tag = .seeking ∧ ∃ p, (s.slot j).record = some (.parcel p)) →
    let kept (qs : List Request) : List Request := qs.filter (fun q => decide (i ∉ q.members))
    ∃ u, exec (.withdraw i) s = .next u ∧ u.response = some ⟨.ok, .nothing⟩ ∧
      (∀ j ∈ members, Slot.RefusedAs (s.slot j) (u.slot j) .withdrawn) ∧
      (∀ j, j ∉ members → u.slot j = s.slot j) ∧
      u.ring = { s.ring with slots := u.ring.slots } ∧
      u.home = s.home.map (fun r => { r with waiting := kept r.waiting }) ∧
      u.table = s.table.map (fun e =>
        { e with waiting := kept e.waiting, incoming := e.incoming.map (fun c => { c with waiting := kept c.waiting }) }) ∧
      SetExactly s.unit.summary u.unit.summary [.withdrawn] ∧
      u.unit.labelsIssued = s.unit.labelsIssued ∧ u.line = s.line ∧ u.sequence = s.sequence ∧ u.station = s.station ∧
      u.configuration = s.configuration ∧ u.store = s.store ∧ u.screen = s.screen ∧ u.clock = s.clock

/-- STATUS, in every station state, returns the station as it stands and changes nothing else (R178). -/
def Obligations.StatusReportsTheStation : Prop :=
  ∀ s : State, s.held = false →
    exec .status s = .next { s with response := some ⟨.ok, .status {
      station := s.station
      line := s.line.state
      stationNumber := s.configuration.map (·.stationNumber)
      stationCount := s.configuration.map (·.stationCount)
      clock := s.clock.map (·.minute)
      sequence := s.sequence
      edition := match s.store with | .loaded t => t.edition | _ => 0
      fault := match s.store with | .faulted c => some c | _ => none
      summary := s.unit.summary
      labelsIssued := s.unit.labelsIssued
      recordsRefused := s.unit.recordsRefused
      framesRejected := s.unit.framesRejected
      presence := s.line.presence.map (fun p => if s.line.state = .off then false else p.present)
      tags := s.ring.slots.map (fun x => if s.station = .ready then x.tag else .empty) }⟩ }

/-- R93: CLEAR returns the summary as it stood and clears the flags it names, those alone, in one event; a flag count
above 16 or a code above 15 is BAD_ARG, and in LOADING it is BUSY, the summary unchanged. The empty body of a BUSY
response is log entry 40. -/
def Obligations.ClearReturnsAndClears : Prop :=
  ∀ (s : State) (f : FlagList), s.held = false →
    (s.station = .loading → exec (.clearSummary f) s = .next { s with response := some ⟨.busy, .nothing⟩ }) ∧
    (s.station ≠ .loading → f.count ≤ 16 → (∀ c ∈ f.codes, c ≤ 15) →
      ∃ w, exec (.clearSummary f) s = .next { s with
          unit := { s.unit with summary := w }, response := some ⟨.ok, .summary s.unit.summary⟩ } ∧
        ∀ k, k < 16 → w.getLsbD k = (s.unit.summary.getLsbD k && !f.codes.contains k)) ∧
    (s.station ≠ .loading → ¬ (f.count ≤ 16 ∧ ∀ c ∈ f.codes, c ≤ 15) →
      exec (.clearSummary f) s = .next { s with response := some ⟨.badArg, .failedCheck 4 0⟩ })

/-- LOT VIEW returns the record this station holds for the lot and changes nothing else (R118). That a home record's
handing over is shown is log entry 32. -/
def Obligations.LotViewShowsTheRecord : Prop :=
  ∀ (s : State) (lot : Nat), s.held = false → s.inService = true →
    ∃ v, exec (.lotView lot) s = .next { s with response := some ⟨.ok, .lot v⟩ } ∧
      (s.planLot lot = none → v = ⟨.nothing, false, false, false, false, none, 0, 0⟩) ∧
      (s.planLot lot ≠ none →
        (∀ r, s.findHome lot = some r →
          v.source = .home r.state ∧ v.handingOver = r.handingOver ∧ v.reclaimed = r.reclaimed ∧
          v.queueLength = r.queue.length ∧ v.waiting = r.waiting.length ∧
          (r.state = .atHome ∨ r.state = .ended → v.figures = some r.figures) ∧
          (r.state = .away ∨ r.state = .askingHome → v.figures = r.lastSeen) ∧
          (r.state = .unknown → v.figures = none)) ∧
        (s.findHome lot = none →
          (∀ k, s.entryOf lot = some k →
            v = ⟨.entry (s.entry k).state, (s.entry k).handingOver, (s.entry k).castout, (s.entry k).reclaimed,
              decide (∃ u, (s.entry k).unreachable = some u ∧ s.timebase < u), (s.entry k).figures,
              (s.entry k).queue.length, (s.entry k).waiting.length⟩) ∧
          (s.entryOf lot = none →
            (∀ k c, s.incomingOf lot = some k → (s.entry k).incoming = some c →
              v = ⟨.incoming, false, false, false, false, none, 0, c.waiting.length⟩) ∧
            (s.incomingOf lot = none → v = ⟨.nothing, false, false, false, false, none, 0, 0⟩))))

/-- LEAVE in READY: BUSY with a ring that is not empty; otherwise every owned lot without a HANDOVER or TALLY pending
gets a HANDOVER to its home, an asking not yet accepted is dropped, and the station is LEAVING, or SERVING when no entry
holds a lot (R144). Which askings count as not yet accepted is log entry 24; queuing times are order numbers (log entry
4). The empty body of a BUSY response is log entry 40. -/
def Obligations.LeaveSendsTheLotsHome : Prop :=
  ∀ s : State, s.held = false → s.station = .ready →
    ((∃ x ∈ s.ring.slots, x.tag ≠ .empty) → exec .leave s = .next { s with response := some ⟨.busy, .nothing⟩ }) ∧
    ((∀ x ∈ s.ring.slots, x.tag = .empty) →
      ∃ u, exec .leave s = .next u ∧ u.response = some ⟨.ok, .nothing⟩ ∧
        u.home = s.home ∧ u.line = s.line ∧ u.ring = s.ring ∧ u.unit = s.unit ∧ u.store = s.store ∧
        u.configuration = s.configuration ∧ u.clock = s.clock ∧ u.sequence = s.sequence ∧ u.screen = s.screen ∧
        u.station = (if ∃ e ∈ s.table, e.state = .owned ∨ e.state = .ownedModified then .leaving else .serving) ∧
        u.table.length = s.table.length ∧
        (∀ (k : Nat) (e : LotEntry), s.table[k]? = some e → ∃ e' : LotEntry, u.table[k]? = some e' ∧
          ((e.state = .owned ∨ e.state = .ownedModified) →
            (e.frame = none ∨ (∃ g, e.frame = some g ∧ g.kind = .notice)) →
            ∃ q, e' = { e with
              frame := some ⟨.handover, match e.lot with | some l => s.homeOf l | none => 0, q⟩
              handingOver := true, publishTimer := none }) ∧
          ((e.state = .owned ∨ e.state = .ownedModified) →
            (∃ g, e.frame = some g ∧ (g.kind = .handover ∨ g.kind = .tally)) → e' = e) ∧
          (e.state = .asking → e.fetchTimer = none → e.attempts = 0 →
            e'.frame = none ∧ e'.waiting = e.waiting ∧
            (e.figures.isSome = true → e'.state = .copy ∧ e'.lot = e.lot ∧ e'.figures = e.figures) ∧
            (e.figures = none → e'.state = .free ∧ e'.lot = none)) ∧
          (e.state = .asking → (e.fetchTimer.isSome = true ∨ 0 < e.attempts) → e' = e) ∧
          (e.state = .copy ∨ e.state = .free → e' = e)))

/-- RESET WARM where it is taken: ring emptied, lot table freed, presence and pending sets emptied, the default screen
back, the line in LISTEN but for OFF and DUPLICATE; configuration, store, clock, sequence counter, summary and counters
kept; each home record as R119 gives (R43, R55, R80, R95, R119, R162, R171, R180). Queuing times are order numbers (log
entry 4). -/
def Obligations.WarmResetKeepsTheDay : Prop :=
  ∀ s : State, s.held = false →
    (s.station = .ready ∨ s.station = .leaving ∨ s.station = .serving ∨ s.station = .tariffFault) → s.HomeDistinct →
    ∃ u, exec .resetWarm s = .next u ∧ u.response = some ⟨.ok, .nothing⟩ ∧
      u.station = (if s.station = .tariffFault then .tariffFault else .ready) ∧
      u.configuration = s.configuration ∧ u.store = s.store ∧ u.clock = s.clock ∧ u.sequence = s.sequence ∧
      u.unit = s.unit ∧
      u.screen = (match s.store with | .loaded t => some t.defaultScreen | _ => none) ∧
      u.ring.slots = List.replicate 8 ⟨.empty, none, none, none, none, none, none⟩ ∧ u.ring.put = 0 ∧ u.ring.rate = 0 ∧
      u.ring.pendingCount = 0 ∧ u.ring.consignment = none ∧ u.ring.watchdog = none ∧
      u.table = List.replicate 48 LotEntry.cleared ∧
      u.line.state = (if s.line.state = .off then .off else if s.line.state = .duplicate then .duplicate else .listen) ∧
      u.line.hello = none ∧ u.line.attempt = none ∧ u.line.faultTimer = none ∧ u.line.beaconTimer = none ∧
      u.line.transmission = none ∧ u.line.presence = List.replicate 32 ⟨false, none⟩ ∧
      u.home.length = s.home.length ∧
      (∀ (k : Nat) (r : HomeRecord), s.home[k]? = some r → ∃ r' : HomeRecord, u.home[k]? = some r' ∧
        r'.lot = r.lot ∧ r'.figures = r.figures ∧
        r'.lastSeen = r.lastSeen ∧ r'.reclaimed = r.reclaimed ∧ r'.queue = r.queue ∧ r'.waiting = [] ∧
        (r.state ≠ .askingHome → r'.state = r.state) ∧
        (r.state = .askingHome → r'.attempts = 0 ∧ r'.fetchTimer = none ∧
          r'.state = (if r.lastSeen = none then .unknown else .away)) ∧
        (r.state ≠ .atHome → r'.frame = none ∧ r'.handingOver = false) ∧
        (r.state = .atHome → ∀ h rest, r.queue = h :: rest →
          r'.handingOver = true ∧ ∃ q, r'.frame = some ⟨.handover, h, q⟩) ∧
        (r.state = .atHome → r.queue = [] → r'.handingOver = false ∧
          (s.pastCutOff r.lot = true → ∃ q, r'.frame = some ⟨.tally, 0, q⟩) ∧
          (s.pastCutOff r.lot = false → r'.frame = none)))

/-- A full reset by command, a power-on reset in any state, and the rise of RSTN (R180, R181). The queue of commands is
the host's (log entry 1), and the order numbers return to their start (log entry 18). -/
def Obligations.FullResetsAndTheRiseOfRstn : Prop :=
  ∀ s : State,
    (s.held = false → s.station ≠ .loading →
      exec .resetFull s = .next { State.reset with pending := s.pending, response := some ⟨.ok, .nothing⟩ }) ∧
    exec .powerOnReset s = .next { State.reset with pending := s.pending, held := true } ∧
    exec .rstnRise s = .next { s with held := false }

/-! ## The rate position -/

/-- A parcel standing alone that the rating refuses completes DONE with the rating's reason (R2, R61, R63, R82). -/
def Obligations.SingleRefusedAtRating : Prop :=
  ∀ (s : State) (t : Tariff) (i : Nat) (p : ParcelRecord) (r : RatingResult) (fs : List Flag) (why : Reason),
    s.AboutToTake t i (.parcel p) → p.pieceMark ≠ 1 → p.pieceMark ≠ 2 → p.pieceMark ≠ 3 → s.ring.consignment = none →
    rateRecord t (s.screen.getD (.places false [])) ⟨s.config.restrictedMask, s.config.overflowMask⟩ none p = (r, fs) →
    r.refusal = some why →
    ∃ u, exec .ratePositionActs s = .next u ∧ Slot.RatedRefused (s.slot i) (u.slot i) (some r) why ∧
      (∀ j, j ≠ i → u.slot j = s.slot j) ∧ s.ring.Advanced u.ring ∧ u.ring.consignment = none ∧
      u.ring.watchdog = s.ring.watchdog ∧
      u.unit.recordsRefused = min (s.unit.recordsRefused + 1) 65535 ∧ u.unit.labelsIssued = s.unit.labelsIssued ∧
      u.unit.framesRejected = s.unit.framesRejected ∧ SetExactly s.unit.summary u.unit.summary fs ∧
      u.response = s.response ∧ State.SameOutsideRing s u

/-- The tries of a RATED parcel standing alone, as State.Tries of Safety.lean says: past the candidates it passes over,
it comes to the first that it does not. A lot at home, or owned by an entry, with room for it is debited, and the parcel
numbered and labelled in the same event; when the sequence counter is used up it is refused NoNumber with no figure and
no number taken (R63, R87, R104 to R107, R110, R166, R167, R169). Otherwise the request joins the lot's waiting list:
the lot is about to leave, is asked for already, or is asked for now with a FETCH; a lot that no entry names gets an
entry by R115 or is the incoming lot of a castout by R116. Ages and queuing times are order numbers (log entry 4); the
taking order is the count of records taken (log entry 21); what counts as a use is log entry 13; that a made entry keeps
its last debit is log entry 26. -/
def Obligations.SingleLabelledFromALotAtHome : Prop :=
  ∀ (s : State) (t : Tariff) (i : Nat) (p : ParcelRecord) (r : RatingResult) (fs : List Flag) (pre : List Candidate)
    (c : Candidate) (cs : List Candidate) (d : Departure),
    s.AboutToTake t i (.parcel p) → p.pieceMark ≠ 1 → p.pieceMark ≠ 2 → p.pieceMark ≠ 3 → s.ring.consignment = none →
    rateRecord t (s.screen.getD (.places false [])) ⟨s.config.restrictedMask, s.config.overflowMask⟩ none p = (r, fs) →
    r.refusal = none → candidatesOf t s.minute r.route p.service = pre ++ c :: cs →
    (∀ x ∈ pre, s.Passes ⟨p.weight, r.litres, 1⟩ x) → s.planLot c.lot = some d → s.minute < d.cutOff →
    (s.slot i).link = none →
    let q : Request := ⟨[i], s.ring.takings + 1, p.service, r.route, ⟨p.weight, r.litres, 1⟩, pre ++ c :: cs, pre.length,
      some c.lot⟩
    ∃ u, exec .ratePositionActs s = .next u ∧
      (s.passing pre).Tries u c.lot d q (s.LeftWaiting u i r fs) (fun n mark => s.Labelled u i p r fs d n mark)
        (s.Unplaced u i r .noNumber (fs ++ [.noNumber]))

/-- The candidate list: at most four departures of the route that admit the service and are not past, in cut-off order,
none earlier left out (R105). A RATED parcel standing alone that has no candidate, or passes over all it has: refused
NoDispatch with the mask clear; with it set, labelled Dispatch pending when the counter covers it and refused NoNumber
when not; no lot changes but for the uses of entries passed over (R86, R87, R97, R106, R107, R109, R167). A last
candidate passed at its entry, and a candidate that needs an entry which cannot be made, are refused NoDispatch too, the
mask clear (R107, R109, R115). The order number of a use is log entry 4. -/
def Obligations.SingleWithoutCandidate : Prop :=
  (∀ (t : Tariff) (minute route service : Nat),
    t.plan.Pairwise (fun a b => a.route = b.route → a.cutOff < b.cutOff) →
    let cs := candidatesOf t minute route service
    let admitted (d : Departure) : Prop := d ∈ t.plan ∧ d.route = route ∧ minute < d.cutOff ∧
      ((service = 0 ∧ d.mask.economy = true) ∨ (service = 1 ∧ d.mask.standard = true) ∨
        (service = 2 ∧ d.mask.priority = true))
    cs.length ≤ 4 ∧ cs.Pairwise (fun a b => a.cutOff < b.cutOff) ∧
    (∀ c ∈ cs, ∃ d, admitted d ∧ c = ⟨d.route * 8 + d.index, d.cutOff⟩) ∧
    (∀ d, admitted d → (⟨d.route * 8 + d.index, d.cutOff⟩ : Candidate) ∈ cs ∨
      (cs.length = 4 ∧ ∀ c ∈ cs, c.cutOff < d.cutOff))) ∧
  (∀ (s : State) (t : Tariff) (i : Nat) (p : ParcelRecord) (r : RatingResult) (fs : List Flag) (n : Nat),
    s.AboutToTake t i (.parcel p) → p.pieceMark ≠ 1 → p.pieceMark ≠ 2 → p.pieceMark ≠ 3 → s.ring.consignment = none →
    rateRecord t (s.screen.getD (.places false [])) ⟨s.config.restrictedMask, s.config.overflowMask⟩ none p = (r, fs) →
    r.refusal = none → s.sequence = some n →
    let figures : Figures := ⟨p.weight, r.litres, 1⟩
    ((∀ x ∈ candidatesOf t s.minute r.route p.service, s.Passes figures x) →
      ∃ u l, exec .ratePositionActs s = .next u ∧ (u.slot i).tag = .complete ∧ (u.slot i).label = some l ∧
        l.charge = r.charge ∧ l.route = r.route ∧ l.departure = 0 ∧ l.cutOff = 0 ∧ l.lot = 0 ∧ l.reclaimedLot = false ∧
        (s.config.noDispatchMask = false →
          l.refusal = some .noDispatch ∧ l.dispatchPending = false ∧ l.trackingNumber = List.replicate 13 0x20 ∧
          u.sequence = some n ∧ SetExactly s.unit.summary u.unit.summary (fs ++ [.noDispatch])) ∧
        (s.config.noDispatchMask = true → n < 100000 →
          l.refusal = none ∧ l.dispatchPending = true ∧ l.trackingNumber = trackingNumber s.config n ∧
          u.sequence = some (n + 1) ∧ SetExactly s.unit.summary u.unit.summary (fs ++ [.noDispatch])) ∧
        (s.config.noDispatchMask = true → 100000 ≤ n →
          l.refusal = some .noNumber ∧ l.dispatchPending = false ∧ l.trackingNumber = List.replicate 13 0x20 ∧
          u.sequence = some n ∧ SetExactly s.unit.summary u.unit.summary (fs ++ [.noDispatch, .noNumber])) ∧
        (∀ j, j ≠ i → u.slot j = s.slot j) ∧ s.ring.Advanced u.ring ∧ u.home = s.home ∧
        u.table = (s.passing (candidatesOf t s.minute r.route p.service)).table ∧
        u.line = s.line ∧ u.screen = s.screen ∧ u.store = s.store ∧ u.clock = s.clock ∧ u.station = s.station ∧
        u.configuration = s.configuration ∧ u.response = s.response) ∧
    (∀ (pre : List Candidate) (c : Candidate) (cs : List Candidate) (d : Departure),
      candidatesOf t s.minute r.route p.service = pre ++ c :: cs → (∀ x ∈ pre, s.Passes figures x) →
      s.planLot c.lot = some d → s.minute < d.cutOff → d.home ≠ s.own → s.config.noDispatchMask = false →
      let past := s.passing pre
      let refused (table : List LotEntry) : Prop := ∃ u, exec .ratePositionActs s = .next u ∧
        s.Undispatched u i r fs ∧ u.home = s.home ∧ u.table = table
      (∀ (k : Nat) (e : LotEntry), cs = [] → s.entryOf c.lot = some k → past.table[k]? = some e →
        s.EntryPasses figures e → refused (past.table.set k { e with lastUse := past.ordinal })) ∧
      (s.entryOf c.lot = none → s.incomingOf c.lot = none → (∀ x ∈ s.table, ¬ s.MayReplace x) →
        (∀ x ∈ s.table, ¬ s.MayCastOut x) → refused past.table)))

/-- A FIRST piece opens a consignment; a MIDDLE piece that fits joins it; a MIDDLE or LAST piece with none open is
refused alone; one that does not match, or a MIDDLE that would be the eighth, ends it refused; any other record taken
while one is open refuses it first and is then taken as with none open (R62, R64 to R67, R69). A LAST piece that matches
closes it: rated as one (R23), refused whole at rating (R25), debited, numbered and labelled as one unit from a first
candidate at home with room (R66, R110, R166), refused NoNumber there with nothing taken when the counter does not cover
every piece (R87, R167), or refused NoDispatch without candidate under a clear mask (R86). The count of records taken,
in the equations, is the model's source of a request's order (log entry 21); the results of pieces refused at rating are
log entry 22. -/
def Obligations.PiecesAreGrouped : Prop :=
  (∀ (s : State) (t : Tariff) (i : Nat) (p : ParcelRecord), s.AboutToTake t i (.parcel p) → s.RingFits →
    (p.pieceMark = 1 → s.ring.consignment = none →
      exec .ratePositionActs s = .next { s with ring := { s.ring with
        slots := s.ring.slots.set i { s.slot i with tag := .grouped, link := some ⟨[i], 1⟩ }
        rate := (i + 1) % 8
        pendingCount := s.ring.pendingCount - 1
        consignment := some ⟨[i], p.service, p.destination⟩
        watchdog := some (s.config.watchdog * 1000)
        takings := s.ring.takings + 1 } }) ∧
    (∀ c, p.pieceMark = 2 → s.ring.consignment = some c → p.service = c.service → p.destination = c.destination →
      c.members.length < 7 →
      exec .ratePositionActs s = .next { s with ring := { s.ring with
        slots := s.ring.slots.set i
          { s.slot i with tag := .grouped, link := some ⟨c.members ++ [i], c.members.length + 1⟩ }
        rate := (i + 1) % 8
        pendingCount := s.ring.pendingCount - 1
        consignment := some { c with members := c.members ++ [i] }
        takings := s.ring.takings + 1 } }) ∧
    ((p.pieceMark = 2 ∨ p.pieceMark = 3) → s.ring.consignment = none →
      ∃ u, exec .ratePositionActs s = .next u ∧ Slot.RefusedAs (s.slot i) (u.slot i) .consignmentOrder ∧
        (∀ j, j ≠ i → u.slot j = s.slot j) ∧ s.ring.Advanced u.ring ∧ u.ring.consignment = none ∧
        SetExactly s.unit.summary u.unit.summary [.consignmentOrder] ∧ u.response = s.response ∧
        State.SameOutsideRing s u) ∧
    (∀ c, s.ring.consignment = some c →
      (p.pieceMark = 2 ∧ (p.service ≠ c.service ∨ p.destination ≠ c.destination ∨ 7 ≤ c.members.length)) ∨
        (p.pieceMark = 3 ∧ (p.service ≠ c.service ∨ p.destination ≠ c.destination)) →
      ∃ u, exec .ratePositionActs s = .next u ∧
        State.ConsignmentRefused s u (c.members ++ [i]) .consignmentOrder .consignmentOrder ∧
        s.ring.Advanced u.ring ∧ u.response = s.response ∧ State.SameOutsideRing s u) ∧
    (∀ (c : Consignment) (ps : List ParcelRecord) (rs : List (Option RatingResult)) (fs : List Flag) (whole : Bool),
      p.pieceMark = 3 → s.ring.consignment = some c → p.service = c.service → p.destination = c.destination →
      let members := c.members ++ [i]
      members.map (fun j => (s.slot j).record) = ps.map (fun x => some (.parcel x)) →
      ratePieces t (s.screen.getD (.places false [])) ⟨s.config.restrictedMask, s.config.overflowMask⟩ members.length
        ps = (rs, fs, whole) →
      let linked (k j : Nat) : Slot := { s.slot j with link := some ⟨members, k + 1⟩ }
      let closed (u : State) : Prop := (∀ j, j ∉ members → u.slot j = s.slot j) ∧ s.ring.Advanced u.ring ∧
        u.ring.consignment = none ∧ u.ring.watchdog = none ∧ u.response = s.response ∧ u.line = s.line ∧
        u.screen = s.screen ∧ u.store = s.store ∧ u.clock = s.clock ∧ u.station = s.station ∧
        u.configuration = s.configuration ∧ u.table = s.table
      (whole = false →
        ∃ u, exec .ratePositionActs s = .next u ∧ closed u ∧ u.home = s.home ∧ u.sequence = s.sequence ∧
          (∀ k j x, members[k]? = some j → rs[k]? = some x → (u.slot j).link = some ⟨members, k + 1⟩ ∧
            Slot.RatedRefused (linked k j) (u.slot j) x
              (match x with | some r => r.refusal.getD .consignmentPeer | none => .consignmentPeer)) ∧
          SetExactly s.unit.summary u.unit.summary (fs ++ [.consignmentPeer]) ∧
          u.unit.labelsIssued = s.unit.labelsIssued ∧
          (s.unit.recordsRefused ≤ 65535 →
            u.unit.recordsRefused = min (s.unit.recordsRefused + members.length) 65535)) ∧
      (∀ r n, whole = true → rs[0]? = some (some r) → s.sequence = some n →
        (candidatesOf t s.minute r.route c.service = [] → s.config.noDispatchMask = false →
          ∃ u, exec .ratePositionActs s = .next u ∧ closed u ∧ u.home = s.home ∧ u.sequence = some n ∧
            (∀ k j x, members[k]? = some j → rs[k]? = some x → (u.slot j).link = some ⟨members, k + 1⟩ ∧
              Slot.RatedRefused (linked k j) (u.slot j) x .noDispatch) ∧
            SetExactly s.unit.summary u.unit.summary (fs ++ [.noDispatch])) ∧
        (∀ (a : Candidate) (as : List Candidate) (h : HomeRecord) (d : Departure),
          candidatesOf t s.minute r.route c.service = a :: as → s.planLot a.lot = some d → d.home = s.own →
          s.minute < d.cutOff → s.OneHome a.lot h → h.state = .atHome → h.queue = [] → h.handingOver = false →
          let figures : Figures := ⟨(ps.map (·.weight)).sum, (rs.map (fun x => (x.map (·.litres)).getD 0)).sum,
            members.length⟩
          FitsIn figures h.figures →
          (100000 < n + members.length →
            ∃ u, exec .ratePositionActs s = .next u ∧ closed u ∧ u.home = s.home ∧ u.sequence = some n ∧
              (∀ k j x, members[k]? = some j → rs[k]? = some x → (u.slot j).link = some ⟨members, k + 1⟩ ∧
                Slot.RatedRefused (linked k j) (u.slot j) x .noNumber) ∧
              u.unit.labelsIssued = s.unit.labelsIssued ∧
              SetExactly s.unit.summary u.unit.summary (fs ++ [.noNumber])) ∧
          (n + members.length ≤ 100000 →
          ∃ u, exec .ratePositionActs s = .next u ∧ closed u ∧ u.sequence = some (n + members.length) ∧
            u.home = s.home.map (fun x => if x.lot = a.lot then { h with figures :=
              ⟨h.figures.weight - figures.weight, h.figures.litres - figures.litres,
                h.figures.pieces - figures.pieces⟩ } else x) ∧
            (∀ k j x, members[k]? = some j → rs[k]? = some (some x) →
              (u.slot j).tag = .complete ∧ (u.slot j).record = (s.slot j).record ∧ (u.slot j).rating = some x ∧
              (u.slot j).link = some ⟨members, k + 1⟩ ∧
              ∃ l, (u.slot j).label = some l ∧ l.refusal = none ∧ l.trackingNumber = trackingNumber s.config (n + k) ∧
                l.consignmentNumber = trackingNumber s.config n ∧ l.pieceIndex = k + 1 ∧ l.charge = x.charge ∧
                l.departure = d.index ∧ l.cutOff = d.cutOff ∧ l.lot = d.lot ∧ l.dispatchPending = false ∧
                l.reclaimedLot = h.reclaimed) ∧
            SetExactly s.unit.summary u.unit.summary fs))))) ∧
  (∀ (s : State) (t : Tariff) (i : Nat) (x : Record) (c : Consignment), s.AboutToTake t i x → s.RingFits →
    s.ring.consignment = some c → (∀ p, x = .parcel p → p.pieceMark ≠ 2 ∧ p.pieceMark ≠ 3) →
    ∃ m, State.ConsignmentRefused s m c.members .consignmentOrder .consignmentOrder ∧ m.AboutToTake t i x ∧
      m.RingFits ∧ m.response = s.response ∧ State.SameOutsideRing s m ∧
      m.ring = { s.ring with slots := m.ring.slots, consignment := none, watchdog := none } ∧
      exec .ratePositionActs s = exec .ratePositionActs m)

/-- A screen record taken with no consignment open is checked by kind, count and entries in order, applied whole or
rejected whole; a DONE or EMPTY slot is passed (R51 to R53, R61). The count of records taken, in the equations, is the
model's source of a request's order (log entry 21). -/
def Obligations.ScreenRecordsAppliedOrRejected : Prop :=
  ∀ (s : State) (t : Tariff) (i : Nat),
    (∀ q, s.AboutToTake t i (.screen q) → s.ring.consignment = none →
      let done (o : ScreenOutcome) (screen : Option Screen) : State := { s with
        screen := screen
        ring := { s.ring with
          slots := s.ring.slots.set i
            { s.slot i with tag := .complete, screenResult := some ⟨q.terminalTag, o⟩ }
          rate := (i + 1) % 8
          pendingCount := s.ring.pendingCount - 1
          takings := s.ring.takings + 1 } }
      let good (e : ScreenEntry) : Prop :=
        (e.length = 3 ∨ e.length = 6) ∧ ∀ b ∈ e.characters.take e.length, isDigit b = true
      (q.body.kind = 1 → exec .ratePositionActs s = .next (done .applied (some (.hashed q.body.hashTable)))) ∧
      (2 ≤ q.body.kind → exec .ratePositionActs s = .next (done (.rejected .badKind) s.screen)) ∧
      (q.body.kind = 0 → (q.body.count < 1 ∨ 16 < q.body.count) →
        exec .ratePositionActs s = .next (done (.rejected .badCount) s.screen)) ∧
      (q.body.kind = 0 → 1 ≤ q.body.count → q.body.count ≤ 16 → q.body.entries.length = 16 →
        ((∀ e ∈ q.body.entries.take q.body.count, good e) →
          exec .ratePositionActs s = .next (done .applied (some (.places (q.body.inverse != 0)
            ((q.body.entries.take q.body.count).map (fun e => ⟨e.length, e.characters.take e.length⟩)))))) ∧
        (∀ (k : Nat) (e : ScreenEntry), k < q.body.count → q.body.entries[k]? = some e →
          (∀ (j : Nat) (g : ScreenEntry), j < k → q.body.entries[j]? = some g → good g) →
          (e.length ≠ 3 → e.length ≠ 6 → exec .ratePositionActs s = .next (done (.rejected (.badLength k)) s.screen)) ∧
          ((e.length = 3 ∨ e.length = 6) → (∃ b ∈ e.characters.take e.length, isDigit b = false) →
            exec .ratePositionActs s = .next (done (.rejected (.badDigit k)) s.screen))))) ∧
    (s.held = false → s.station = .ready → s.store = .loaded t → s.ring.rate = i → 0 < s.ring.pendingCount →
      ((s.slot i).tag = .complete ∨ (s.slot i).tag = .empty) →
      exec .ratePositionActs s = .next { s with ring := { s.ring with
        rate := (i + 1) % 8, pendingCount := s.ring.pendingCount - 1 } })

/-! ## Time -/

/-- The clock advances by a minute and holds at 2,879; an advance that reaches no cut-off changes nothing else; a lot
owned here, at home or in an entry, that reaches its cut-off with nothing waiting, no queue and no frame but a NOTICE
gets its TALLY; the requests waiting on the lot's record or incoming lot, with no candidate left, leave it refused
NoDispatch, a single one moves on to a later candidate or, under the mask, is labelled Dispatch pending (R109), and the
asking goes on (R96, R112, R113). Of the entries tried then, log entries 13 and 26. That CLOCK_ADVANCE advances the
clock whatever ms are counted of the minute is the model's choice (log entry 3), as is that count (log entry 2); queuing
times are order numbers (log entry 4). -/
def Obligations.ClockAdvancesToCutOffs : Prop :=
  ∀ (s : State) (k : StationClock), s.held = false → s.clock = some k →
    (2879 ≤ k.minute → exec .clockAdvance s = .next s) ∧
    (k.minute < 2879 →
      let next : State := { s with clock := some ⟨k.minute + 1, 0⟩ }
      ((∀ t, s.store = .loaded t → ∀ d ∈ t.plan, d.cutOff ≠ k.minute + 1) → exec .clockAdvance s = .next next) ∧
      (∀ t d, s.store = .loaded t → t.plan.filter (fun d => d.cutOff == k.minute + 1) = [d] →
        s.planLot d.lot = some d →
        (∀ r, s.OneHome d.lot r → s.entryOf d.lot = none → s.incomingOf d.lot = none →
          (r.state = .atHome → r.queue = [] → r.frame = none → r.waiting = [] →
            exec .clockAdvance s = .next { next with
              home := s.home.map (fun x => if x.lot = d.lot then { x with frame := some ⟨.tally, 0, s.ordinal⟩ } else x)
              ordinal := s.ordinal + 1 }) ∧
          (r.state ≠ .atHome → s.MayEnd r.waiting →
            ∃ u, exec .clockAdvance s = .next u ∧ next.EndRefused u r.waiting ∧ u.station = s.station ∧
              u.home = s.home.map (fun x => if x.lot = d.lot then { x with waiting := [] } else x) ∧
              u.table = s.table ∧ u.line = s.line) ∧
          (∀ q, r.state ≠ .atHome → r.waiting = [q] → s.MayServe [q] →
            ∃ u, exec .clockAdvance s = .next u ∧ u.station = s.station ∧ u.line = s.line ∧
              State.MovesOn { next with
                home := s.home.map (fun x => if x.lot = d.lot then { x with waiting := [] } else x) } u q)) ∧
        (∀ (j : Nat) (e : LotEntry), s.OneEntry d.lot j e → e.lot = some d.lot → s.incomingOf d.lot = none →
          ((e.state = .owned ∨ e.state = .ownedModified) → e.queue = [] → e.waiting = [] →
            (e.frame = none ∨ ∃ g, e.frame = some g ∧ g.kind = .notice) →
            exec .clockAdvance s = .next { next with
              table := s.table.set j { e with publishTimer := none, frame := some ⟨.tally, 0, s.ordinal⟩ }
              ordinal := s.ordinal + 1 }) ∧
          (e.state ≠ .owned → e.state ≠ .ownedModified → s.MayEnd e.waiting →
            ∃ u, exec .clockAdvance s = .next u ∧ next.EndRefused u e.waiting ∧ u.station = s.station ∧
              u.table = s.table.set j { e with waiting := [] } ∧ u.home = s.home ∧ u.line = s.line) ∧
          (∀ q, e.state ≠ .owned → e.state ≠ .ownedModified → e.waiting = [q] → s.MayServe [q] →
            ∃ u, exec .clockAdvance s = .next u ∧ u.station = s.station ∧ u.line = s.line ∧
              State.MovesOn { next with table := s.table.set j { e with waiting := [] } } u q)) ∧
        (∀ (j : Nat) (e : LotEntry) (n : Incoming), s.findHome d.lot = none → s.entryOf d.lot = none →
          s.incomingOf d.lot = some j → s.table[j]? = some e → e.incoming = some n → s.MayEnd n.waiting →
          ∃ u, exec .clockAdvance s = .next u ∧ next.EndRefused u n.waiting ∧ u.station = s.station ∧
            u.table = s.table.set j { e with incoming := some { n with waiting := [] } } ∧ u.home = s.home ∧
            u.line = s.line)))

/-- The expiries of the fetch, publish, fault, beacon and absence timers while they run (R130 to R132, R138, R145, R155,
R159, R161): a third expiry with requests waiting, none of them with a candidate left, refuses them NoDispatch, and a
single one moves on to a later candidate or, under the mask, is labelled Dispatch pending (R109); in LEAVING and SERVING
an asking ends at its first expiry; a publish expiry with a NOTICE pending queues nothing. An expiry acts whenever its
timer runs (log entry 3); queuing times are order numbers (log entry 4); uses and the ages kept by freed and made
entries are log entries 13 and 26. -/
def Obligations.TimersExpire : Prop :=
  ∀ s : State, s.held = false →
    (∀ (i : Nat) (e : LotEntry), s.station = .ready → s.table[i]? = some e → e.state = .asking →
      e.fetchTimer.isSome = true → e.frame = none →
      (e.attempts < 2 → exec (.fetchTimerExpires (.entry i)) s = .next { s with
        table := s.table.set i
          { e with attempts := e.attempts + 1, fetchTimer := none, frame := some ⟨.fetch, 0, s.ordinal⟩ }
        ordinal := s.ordinal + 1 }) ∧
      (2 ≤ e.attempts →
        let failed : LotEntry := { e with
          state := if e.figures = none then .free else .copy
          attempts := 0, fetchTimer := none, frame := some ⟨.stall, 0, s.ordinal⟩, waiting := []
          unreachable := some (s.timebase + 8 * s.config.fetchTimeout) }
        (e.waiting = [] → exec (.fetchTimerExpires (.entry i)) s = .next { s with
          table := s.table.set i failed, ordinal := s.ordinal + 1 }) ∧
        (s.MayEnd e.waiting → ∃ u, exec (.fetchTimerExpires (.entry i)) s = .next u ∧ s.EndRefused u e.waiting ∧
          u.table = s.table.set i failed ∧ u.home = s.home ∧ u.line = s.line ∧ u.station = s.station) ∧
        (∀ q, e.waiting = [q] → s.MayServe [q] → ∃ u, exec (.fetchTimerExpires (.entry i)) s = .next u ∧
          State.MovesOn { s with table := s.table.set i failed, ordinal := s.ordinal + 1 } u q ∧ u.line = s.line ∧
          u.station = s.station))) ∧
    (∀ (i : Nat) (e : LotEntry), (s.station = .leaving ∨ s.station = .serving) → s.table[i]? = some e →
      e.state = .asking → e.fetchTimer.isSome = true →
      (e.figures.isSome = true → exec (.fetchTimerExpires (.entry i)) s = .next { s with
        table := s.table.set i { e with state := .copy, attempts := 0, fetchTimer := none } }) ∧
      (e.figures = none → e.waiting = [] → exec (.fetchTimerExpires (.entry i)) s = .next { s with
        table := s.table.set i { LotEntry.cleared with lastUse := e.lastUse, lastDebit := e.lastDebit } })) ∧
    (∀ (lot : Nat) (r : HomeRecord), s.OneHome lot r → r.state = .askingHome → r.fetchTimer.isSome = true →
      r.frame = none →
      let after (r' : HomeRecord) : State :=
        { s with home := s.home.map (fun x => if x.lot = lot then r' else x), ordinal := s.ordinal + 1 }
      (r.attempts < 2 → exec (.fetchTimerExpires (.home lot)) s = .next (after
        { r with attempts := r.attempts + 1, fetchTimer := none, frame := some ⟨.fetch, 0, s.ordinal⟩ })) ∧
      (2 ≤ r.attempts → r.waiting ≠ [] → exec (.fetchTimerExpires (.home lot)) s = .next (after
        { r with attempts := r.attempts + 1, fetchTimer := none, frame := some ⟨.reclaim, 0, s.ordinal⟩ })) ∧
      (2 ≤ r.attempts → r.waiting = [] → exec (.fetchTimerExpires (.home lot)) s = .next (after
        { r with
          state := if r.lastSeen = none then .unknown else .away
          attempts := 0, fetchTimer := none, frame := some ⟨.reclaim, 0, s.ordinal⟩ }))) ∧
    (∀ (i : Nat) (e : LotEntry), s.table[i]? = some e → e.publishTimer.isSome = true → e.state = .ownedModified →
      (e.frame = none → exec (.publishTimerExpires i) s = .next { s with
        table := s.table.set i { e with publishTimer := none, frame := some ⟨.notice, 0, s.ordinal⟩ }
        ordinal := s.ordinal + 1 }) ∧
      (∀ g, e.frame = some g → g.kind = .notice → exec (.publishTimerExpires i) s = .next { s with
        table := s.table.set i { e with publishTimer := none }, ordinal := s.ordinal + 1 })) ∧
    (s.line.state = .faulted → s.line.faultTimer.isSome = true →
      exec .faultTimerExpires s = .next { s with line := { s.line with state := .listen, faultTimer := none } }) ∧
    (s.line.state = .active → s.line.beaconTimer.isSome = true →
      (s.line.hello = none → exec .beaconTimerExpires s = .next { s with
        line := { s.line with beaconTimer := none, hello := some s.ordinal }, ordinal := s.ordinal + 1 }) ∧
      (s.line.hello.isSome = true →
        exec .beaconTimerExpires s = .next { s with line := { s.line with beaconTimer := none } })) ∧
    (∀ (n : Nat) (p : Presence), s.line.presence[n]? = some p → p.absence.isSome = true →
      exec (.absenceTimerExpires n) s = .next { s with
        line := { s.line with presence := s.line.presence.set n ⟨false, none⟩ } })

/-! ## The hall line -/

/-- LISTEN to JOINING at an idle interval with a HELLO queued, JOINING to ACTIVE at the own HELLO's acceptance with the
beacon timer at 20 s; another's HELLO marks its sender present, and sets EditionMismatch when its edition differs (R158
to R161). Queuing times are order numbers (log entry 4); an own frame is told by the transmission held (log entry 5). -/
def Obligations.StationJoinsTheLine : Prop :=
  ∀ s : State, s.held = false →
    (s.line.state = .listen →
      (s.line.hello = none → exec .idleIntervalSeen s = .next { s with
        line := { s.line with state := .joining, hello := some s.ordinal }, ordinal := s.ordinal + 1 }) ∧
      (s.line.hello.isSome = true →
        exec .idleIntervalSeen s = .next { s with line := { s.line with state := .joining } })) ∧
    (∀ e n q, s.line.state = .joining → s.line.hello = some q →
      s.line.transmission = some ⟨.hello, .hello, q, some ⟨s.own, .hello e n⟩⟩ →
      exec (.helloAccepted s.own e n) s = .next { s with line := { s.line with
        state := .active, hello := none, attempt := none, beaconTimer := some 20000, transmission := none
        droveSlot := false, presence := s.line.presence.set s.own ⟨true, some 60000⟩ } }) ∧
    (∀ sender e n, s.line.state ≠ .off → s.line.transmission = none → sender ≠ s.own →
      (e = s.edition → exec (.helloAccepted sender e n) s = .next { s with line := s.line.heard sender }) ∧
      (e ≠ s.edition → exec (.helloAccepted sender e n) s = .next { s with
        line := s.line.heard sender
        unit := { s.unit with summary := s.unit.summary ||| BitVec.twoPow 16 14 } }))

/-- The frame offered is the pending one of lowest kind and then of earliest queuing, while no frame of the station is
on the line; its body is formed at the win from its home record, its entry or, for a HELLO, by the line controller, when
it is still pending; dropped or replaced before its win, it is truncated; a lost arbitration leaves it pending and
counts nothing (R121, R125, R134, R149, R150, R157). Queuing times are order numbers (log entry 4); the frame being sent
is held as a transmission (log entry 5). -/
def Obligations.FramesOfferedAndFormed : Prop :=
  ∀ s : State, s.held = false →
    (s.line.state = .active → s.line.transmission = none →
      (s.pendingLotFrames ++ s.pendingHello = [] → exec .transmitStart s = .next s) ∧
      (s.pendingLotFrames ++ s.pendingHello ≠ [] →
        ∃ o f, (o, f) ∈ s.pendingLotFrames ++ s.pendingHello ∧
          (∀ g ∈ s.pendingLotFrames ++ s.pendingHello, f.kind.code < g.2.kind.code ∨
            (f.kind.code = g.2.kind.code ∧ f.queuedAt ≤ g.2.queuedAt)) ∧
          exec .transmitStart s = .next { s with line := { s.line with
            transmission := some ⟨o, f.kind, f.queuedAt, none⟩ } })) ∧
    (∀ q, s.line.state = .joining → s.line.transmission = none → s.line.hello = some q →
      exec .transmitStart s = .next { s with line := { s.line with transmission := some ⟨.hello, .hello, q, none⟩ } }) ∧
    ((s.line.state ≠ .active ∧ s.line.state ≠ .joining) ∨ s.line.transmission.isSome = true →
      exec .transmitStart s = .next s) ∧
    (∀ t, s.line.transmission = some t → t.formed = none →
      let cut : State := { s with line := { s.line with transmission := none } }
      (∀ f, s.pendingFrame t.owner = some f → f.kind = t.kind → f.queuedAt = t.queuedAt →
        ∃ b, exec .frameWinsLine s = .next { s with line := { s.line with
            transmission := some { t with formed := some ⟨s.own, b⟩ } } } ∧
          (∀ (lot : Nat) (r : HomeRecord), t.owner = .home lot → s.findHome lot = some r →
            (t.kind = .handover → b = .handover ⟨f.recipient, lot, r.figures, if r.reclaimed then 1 else 0,
              r.queue.filter (fun n => n != f.recipient)⟩) ∧
            (∀ g, t.kind = .reclaim → r.lastSeen = some g → b = .reclaim lot g) ∧
            (t.kind = .reclaim → r.lastSeen = none → b = .reclaim lot ⟨0, 0, 0⟩) ∧
            (t.kind = .tally → b = .tally lot r.figures) ∧ (t.kind = .fetch → b = .fetch lot)) ∧
          (∀ (i : Nat) (e : LotEntry) (lot : Nat), t.owner = .entry i → s.table[i]? = some e → e.lot = some lot →
            (t.kind = .handover → b = .handover ⟨f.recipient, lot, e.figures.getD ⟨0, 0, 0⟩,
              if e.reclaimed then 1 else 0, e.queue.filter (fun n => n != f.recipient)⟩) ∧
            (t.kind = .fetch → b = .fetch lot) ∧ (t.kind = .stall → b = .stall lot) ∧
            (t.kind = .tally → b = .tally lot (e.figures.getD ⟨0, 0, 0⟩)) ∧
            (t.kind = .notice → b = .notice lot (e.figures.getD ⟨0, 0, 0⟩))) ∧
          (t.owner = .hello → b = .hello s.edition Config.factorySerial)) ∧
      (s.pendingFrame t.owner = none → exec .frameWinsLine s = .next cut) ∧
      (∀ f, s.pendingFrame t.owner = some f → (f.kind ≠ t.kind ∨ f.queuedAt ≠ t.queuedAt) →
        exec .frameWinsLine s = .next cut) ∧
      exec .arbitrationLost s = .next cut)

/-- A failed attempt of the frame being sent, by read-back or by a rejection, counts against that frame; the eighth in a
row takes the line to FAULTED for 10 s and sets LineFault. Every station that receives, in each line state but OFF,
counts a rejected frame, and drives the slot when it found the frame faulty, but the sender drives nothing in it; a
station in OFF counts nothing (R94, R147, R151 to R155). An attempt is told by its record and queuing time (log entry
15); the driven slot is the model's output field (log entry 20); a rejection ends a transmission not yet won (log entry
5). -/
def Obligations.FailedAttemptsLeadToFaulted : Prop :=
  ∀ (s : State) (r : Reception), s.held = false →
    (s.line.state = .off → exec (.frameRejected r) s = .next s) ∧
    (s.line.state ≠ .off →
      (∀ t, s.line.transmission = some t → t.formed = none →
        exec (.frameRejected r) s = .next { s with
          line := { s.line with transmission := none, droveSlot := faulty r }
          unit := { s.unit with framesRejected := min (s.unit.framesRejected + 1) 65535 } }) ∧
      (s.line.transmission = none →
        exec (.frameRejected r) s = .next { s with
          line := { s.line with droveSlot := faulty r }
          unit := { s.unit with framesRejected := min (s.unit.framesRejected + 1) 65535 } })) ∧
    (∀ t f, (s.line.state = .joining ∨ s.line.state = .active) → s.line.transmission = some t → t.formed = some f →
      let count := match s.line.attempt with
        | some a => if a.owner = t.owner ∧ a.queuedAt = t.queuedAt then a.count + 1 else 1
        | none => 1
      (count < 8 →
        exec .readbackFailure s = .next { s with line := { s.line with
          transmission := none, attempt := some ⟨t.owner, t.queuedAt, count⟩ } } ∧
        exec (.frameRejected r) s = .next { s with
          line := { s.line with
            transmission := none, attempt := some ⟨t.owner, t.queuedAt, count⟩, droveSlot := false }
          unit := { s.unit with framesRejected := min (s.unit.framesRejected + 1) 65535 } }) ∧
      (8 ≤ count →
        exec .readbackFailure s = .next { s with
          line := { s.line with
            state := .faulted, transmission := none, attempt := none, beaconTimer := none, faultTimer := some 10000 }
          unit := { s.unit with summary := s.unit.summary ||| BitVec.twoPow 16 12 } } ∧
        exec (.frameRejected r) s = .next { s with
          line := { s.line with
            state := .faulted, transmission := none, attempt := none, beaconTimer := none, faultTimer := some 10000
            droveSlot := false }
          unit := { s.unit with
            framesRejected := min (s.unit.framesRejected + 1) 65535
            summary := s.unit.summary ||| BitVec.twoPow 16 12 } }))

/-- A station that reads its own number's frame from another enters DUPLICATE: by read-back after the header, or at the
acceptance of any frame of its number, of every kind, that it did not send to its end; ATTN and the Duplicate flag are
set. In DUPLICATE already, only presence changes. Such a HELLO sets EditionMismatch when its edition differs, and such a
NOTICE or STALL is acted on as another station's. A frame of kind 7 of another number is taken for its sender's presence
alone (R122, R151, R153, R156, R160, R161). An own frame is told by the transmission held (log entry 5). -/
def Obligations.DuplicateNumberFound : Prop :=
  ∀ s : State, s.held = false → s.line.state ≠ .off →
    (∀ sender c, s.line.transmission = none → sender ≠ s.own →
      exec (.unknownKindFrameAccepted sender c) s = .next { s with line := s.line.heard sender }) ∧
    (s.line.state = .duplicate → s.line.transmission = none →
      (∀ c, exec (.unknownKindFrameAccepted s.own c) s = .next { s with line := s.line.heard s.own }) ∧
      (∀ n, exec (.helloAccepted s.own s.edition n) s = .next { s with line := s.line.heard s.own })) ∧
    (s.line.state ≠ .duplicate →
      let found (w : BitVec 16) : State := { s with
        line := s.line.duplicated s.own
        unit := { s.unit with summary := s.unit.summary ||| BitVec.twoPow 16 13 ||| w } }
      (∀ t f, s.line.transmission = some t → t.formed = some f →
        exec .readbackDuplicate s = .next { s with
          line := { s.line with
            state := .duplicate, attempt := none, beaconTimer := none, faultTimer := none, transmission := none }
          unit := { s.unit with summary := s.unit.summary ||| BitVec.twoPow 16 13 } }) ∧
      (∀ f : HallFrame, f.wf → f.sender = s.own → (∀ t, s.line.transmission = some t → t.formed ≠ some f) →
        (∃ u, exec f.event s = .next u ∧ u.line = s.line.duplicated s.own ∧ flagSet u.unit.summary .duplicate = true ∧
          u.attn = true ∧ u.configuration = s.configuration ∧ u.store = s.store ∧ u.clock = s.clock) ∧
        (∀ c, f.body = .unknown c → exec (.unknownKindFrameAccepted s.own c) s = .next (found 0)) ∧
        (∀ e n, f.body = .hello e n →
          (e = s.edition → exec (.helloAccepted s.own e n) s = .next (found 0)) ∧
          (e ≠ s.edition → exec (.helloAccepted s.own e n) s = .next (found (BitVec.twoPow 16 14)))) ∧
        (∀ other, other ≠ s.own →
          let heard : State := { s with line := { s.line with transmission := none } }
          (∀ lot g, f.body = .notice lot g → ∃ u v, exec (.noticeAccepted s.own lot g) s = .next u ∧
            exec (.noticeAccepted other lot g) heard = .next v ∧ u.home = v.home ∧ u.table = v.table ∧
            u.ring = v.ring ∧ u.station = v.station) ∧
          (∀ lot, f.body = .stall lot → ∃ u v, exec (.stallAccepted s.own lot) s = .next u ∧
            exec (.stallAccepted other lot) heard = .next v ∧ u.home = v.home ∧ u.table = v.table ∧
            u.ring = v.ring ∧ u.station = v.station))))

/-! ## Accepted lot frames -/

/-- The recipient of an accepted HANDOVER takes the lot as owner with the carried figures (none above the plan
capacity), mark and queue, debits the requests waiting for it in ring order, then hands it on to the queue's head, or
tallies it when due (R111, R127, R153, R187). One without an entry makes one, or takes one to return the lot, or cannot
hold it (R128); one that is LEAVING or SERVING hands a lot without a queue home (R145), and its home records take their
lots as in READY. Requests set aside have no candidate left here, or one alone is set aside and moves on to a later one
(R109, R111); one alone that fits, the counter not covering it, is refused NoNumber and no figure is taken (R87, R110,
R167). What a LEAVING or SERVING station does at R128's return is log entry 28. Ages and queuing times are order numbers
(log entry 4); the waiting list of a returned incoming lot is log entry 14; uses and the ages of made entries are log
entries 13 and 26. -/
def Obligations.HandoverMakesItsRecipientOwner : Prop :=
  ∀ (s : State) (sender : Nat) (b : HandoverBody) (d : Departure),
    s.held = false → (s.station = .ready ∨ s.station = .leaving ∨ s.station = .serving) → s.line.state ≠ .off →
    s.line.transmission = none → sender ≠ s.own → b.queue.length ≤ 31 → b.recipient = s.own →
    s.planLot b.lot = some d →
    let figures : Figures := ⟨min b.figures.weight d.capacity.weight, min b.figures.litres d.capacity.litres,
      min b.figures.pieces d.capacity.pieces⟩
    let queue := carriedQueue s.own [] b.queue
    let mark := b.reclaimed != 0
    queue.Nodup ∧ (∀ n ∈ queue, n ≤ 31 ∧ n ≠ s.own ∧ n ∈ b.queue) ∧ queue.Sublist b.queue ∧
    (∀ n ∈ b.queue, n ≤ 31 → n ≠ s.own → n ∈ queue) ∧
    (∀ r, d.home = s.own → s.OneHome b.lot r →
      (r.state = .away ∨ r.state = .unknown ∨ r.state = .askingHome) →
      let now : State := { s with station := s.settled s.table }
      let taken (r' : HomeRecord) (left : Figures) : Prop :=
        r'.lot = b.lot ∧ r'.state = .atHome ∧ r'.figures = left ∧ r'.lastSeen = none ∧ r'.reclaimed = mark ∧
        r'.queue = queue ∧ r'.attempts = 0 ∧ r'.fetchTimer = none ∧ r'.waiting = [] ∧ r'.Onward s.minute d queue
      (r.waiting = [] →
        ∃ u r', exec (.handoverAccepted sender b) s = .next u ∧
          u.home = s.home.map (fun x => if x.lot = b.lot then r' else x) ∧ u.table = s.table ∧
          u.line = s.line.heard sender ∧ now.SameOutsideLots u ∧ taken r' figures) ∧
      (∀ n, s.MayArrive d figures r.waiting n →
        let out := s.arrival d figures r.waiting
        ∃ u r', exec (.handoverAccepted sender b) s = .next u ∧
          u.home = s.home.map (fun x => if x.lot = b.lot then r' else x) ∧ u.table = s.table ∧
          u.line = s.line.heard sender ∧ s.Served u d mark out.1 out.2.1 n ∧ u.station = now.station ∧
          taken r' out.2.2) ∧
      (∀ q n, r.waiting = [q] → s.MayServe [q] → s.minute < d.cutOff → FitsIn q.figures figures → s.sequence = some n →
        100000 < n + q.members.length →
        ∃ u r', exec (.handoverAccepted sender b) s = .next u ∧ s.AllRefused u [q] .noNumber [.noNumber] ∧
          u.home = s.home.map (fun x => if x.lot = b.lot then r' else x) ∧ u.table = s.table ∧
          u.line = s.line.heard sender ∧ u.station = now.station ∧ taken r' figures) ∧
      (∀ q, s.station = .ready → r.waiting = [q] → s.MayServe [q] → (d.cutOff ≤ s.minute ∨ ¬ FitsIn q.figures figures) →
        (∀ c ∈ q.candidates.drop (q.next + 1), c.lot ≠ b.lot) →
        let held : HomeRecord := { r with
          state := .atHome, figures := figures, lastSeen := none, reclaimed := mark, queue := queue
          handingOver := false, attempts := 0, fetchTimer := none, frame := none, waiting := [] }
        ∃ u v r', exec (.handoverAccepted sender b) s = .next u ∧
          State.MovesOn { s with
            line := s.line.heard sender, home := s.home.map (fun x => if x.lot = b.lot then held else x) } v q ∧
          u = { v with
            line := s.line.heard sender, home := v.home.map (fun x => if x.lot = b.lot then r' else x)
            ordinal := u.ordinal, station := s.station } ∧
          taken r' figures)) ∧
    (d.home ≠ s.own →
      let taken (e' : LotEntry) (left : Figures) : Prop :=
        e'.lot = some b.lot ∧ (e'.state = .owned ∨ e'.state = .ownedModified) ∧ e'.figures = some left ∧
        e'.reclaimed = mark ∧ e'.queue = queue ∧ e'.castout = false ∧ e'.attempts = 0 ∧ e'.fetchTimer = none ∧
        e'.unreachable = none ∧ e'.waiting = [] ∧ s.Onward e' d queue
      let fresh (e' : LotEntry) : Prop := e'.state = .owned ∧ e'.publishTimer = none ∧ e'.incoming = none
      (∀ (i : Nat) (e : LotEntry), s.OneEntry b.lot i e → (e.state = .asking ∨ e.state = .copy ∨ e.state = .free) →
        (e.waiting = [] →
          ∃ u e', exec (.handoverAccepted sender b) s = .next u ∧
            u.table = s.table.set i e' ∧ u.home = s.home ∧ u.line = s.line.heard sender ∧ State.SameOutsideLots s u ∧
            taken e' figures ∧ e'.state = .owned ∧ e'.publishTimer = none ∧ e'.lastUse = s.ordinal ∧
            e'.lastDebit = s.ordinal ∧ e'.incoming = e.incoming) ∧
        (∀ n, s.station = .ready → s.MayArrive d figures e.waiting n →
          let out := s.arrival d figures e.waiting
          ∃ u e', exec (.handoverAccepted sender b) s = .next u ∧
            u.table = s.table.set i e' ∧ u.home = s.home ∧ u.line = s.line.heard sender ∧
            s.Served u d mark out.1 out.2.1 n ∧ u.station = s.station ∧ taken e' out.2.2 ∧ e'.incoming = e.incoming ∧
            (e'.state = .ownedModified ↔ out.1 ≠ []) ∧
            (out.1 ≠ [] → queue = [] → e'.publishTimer = some (s.config.publishDelay * 1000))) ∧
        (∀ q n, s.station = .ready → e.waiting = [q] → s.MayServe [q] → s.minute < d.cutOff →
          FitsIn q.figures figures → s.sequence = some n → 100000 < n + q.members.length →
          ∃ u e', exec (.handoverAccepted sender b) s = .next u ∧ s.AllRefused u [q] .noNumber [.noNumber] ∧
            u.table = s.table.set i e' ∧ u.home = s.home ∧ u.line = s.line.heard sender ∧ u.station = s.station ∧
            taken e' figures ∧ e'.state = .owned ∧ e'.publishTimer = none ∧ e'.incoming = e.incoming) ∧
        (∀ q, s.station = .ready → e.waiting = [q] → s.MayServe [q] →
          (d.cutOff ≤ s.minute ∨ ¬ FitsIn q.figures figures) → e.incoming = none → s.incomingOf b.lot = none →
          (∀ c ∈ q.candidates.drop (q.next + 1), c.lot ≠ b.lot ∧ (queue ≠ [] ∨ s.homeOf c.lot = s.own)) →
          let held : LotEntry := { LotEntry.cleared with
            lot := some b.lot, state := .owned, figures := some figures, reclaimed := mark, queue := queue
            lastUse := s.ordinal, lastDebit := s.ordinal }
          ∃ u v e', exec (.handoverAccepted sender b) s = .next u ∧
            State.MovesOn { s with
              line := s.line.heard sender, table := s.table.set i held, ordinal := s.ordinal + 1 } v q ∧
            u = { v with
              line := s.line.heard sender, table := v.table.set i e', ordinal := u.ordinal, station := s.station } ∧
            taken e' figures ∧ fresh e')) ∧
      (∀ (i : Nat) (e : LotEntry), s.findHome b.lot = none → s.entryOf b.lot = none →
        s.LeastOf s.MayReplace (·.lastUse) i e →
        (s.incomingOf b.lot = none →
          ∃ u e', exec (.handoverAccepted sender b) s = .next u ∧ u.table = s.table.set i e' ∧ u.home = s.home ∧
            u.line = s.line.heard sender ∧ State.SameOutsideLots s u ∧ taken e' figures ∧ fresh e') ∧
        (∀ (j : Nat) (x : LotEntry) (c : Incoming) (n : Nat), s.station = .ready → s.incomingOf b.lot = some j →
          s.table[j]? = some x → x.incoming = some c → s.MayArrive d figures c.waiting n →
          let out := s.arrival d figures c.waiting
          ∃ u e', exec (.handoverAccepted sender b) s = .next u ∧
            u.table = (s.table.set j { x with incoming := none }).set i e' ∧ u.home = s.home ∧
            u.line = s.line.heard sender ∧ s.Served u d mark out.1 out.2.1 n ∧ u.station = s.station ∧
            taken e' out.2.2)) ∧
      (s.findHome b.lot = none → s.entryOf b.lot = none → (∀ x ∈ s.table, ¬ s.MayReplace x) →
        (∀ (i : Nat) (e : LotEntry), s.LeastOf MayReturn (·.lastUse) i e → s.incomingOf b.lot = none →
          ∃ u e', exec (.handoverAccepted sender b) s = .next u ∧ u.table = s.table.set i e' ∧ u.home = s.home ∧
            u.line = s.line.heard sender ∧ State.SameOutsideLots s u ∧ fresh e' ∧ e'.lot = some b.lot ∧
            e'.figures = some figures ∧ e'.reclaimed = mark ∧ e'.queue = queue ∧ e'.waiting = [] ∧
            (s.station = .ready →
              e'.handingOver = true ∧ e'.castout = true ∧ ∃ q, e'.frame = some ⟨.handover, d.home, q⟩) ∧
            (s.station ≠ .ready → s.Onward e' d queue)) ∧
        ((∀ x ∈ s.table, ¬ MayReturn x) →
          exec (.handoverAccepted sender b) s = .next { s with
            line := s.line.heard sender, station := s.settled s.table })))

/-- The sender of an accepted HANDOVER gives the lot up: AWAY with the sent figures as last seen, or COPY with them. The
requests waiting that fit the sent figures stay and the record asks again; the others, with no candidate left here, are
refused, and one alone that does not fit moves on to a later candidate or, under the mask, is labelled Dispatch pending
(R109). A castout's incoming lot is then taken up, or dropped with nothing waiting. A LEAVING station that gives up its
last lot is SERVING (R117, R126, R144, R153). An own frame is told by the transmission held (log entry 5); queuing times
are order numbers (log entry 4); that taking up an incoming lot is a use, and that the entry keeps its last debit, are
log entries 13 and 26. -/
def Obligations.HandoverLeavesItsSender : Prop :=
  ∀ (s : State) (b : HandoverBody) (d : Departure) (q : Nat) (g : PendingFrame),
    s.held = false → s.Acts → s.line.state = .active → b.queue.length ≤ 31 → s.planLot b.lot = some d →
    b.figures.weight ≤ d.capacity.weight → b.figures.litres ≤ d.capacity.litres → b.figures.pieces ≤ d.capacity.pieces →
    g.kind = .handover → g.queuedAt = q →
    let line := s.line.delivered s.own
    let stay (qs : List Request) : List Request := qs.filter (fun x => decide (x.figures.weight ≤ b.figures.weight ∧
      x.figures.litres ≤ b.figures.litres ∧ x.figures.pieces ≤ b.figures.pieces))
    let aside (qs : List Request) : List Request := qs.filter (fun x => !decide (x.figures.weight ≤ b.figures.weight ∧
      x.figures.litres ≤ b.figures.litres ∧ x.figures.pieces ≤ b.figures.pieces))
    (∀ r, s.line.transmission = some ⟨.home b.lot, .handover, q, some ⟨s.own, .handover b⟩⟩ → s.OneHome b.lot r →
      r.state = .atHome → r.frame = some g →
      let gone : HomeRecord := { r with
        state := .away, figures := ⟨0, 0, 0⟩, lastSeen := some b.figures, queue := [], handingOver := false
        frame := none }
      (r.waiting = [] →
        exec (.handoverAccepted s.own b) s = .next { s with
          line := line, home := s.home.map (fun x => if x.lot = b.lot then gone else x)
          station := s.settled s.table }) ∧
      (s.MayEnd (aside r.waiting) →
        ∃ u, exec (.handoverAccepted s.own b) s = .next u ∧ s.EndRefused u (aside r.waiting) ∧ u.line = line ∧
          u.station = s.settled s.table ∧ u.table = s.table ∧
          u.home = s.home.map (fun x => if x.lot = b.lot then
            if stay r.waiting = [] then { gone with waiting := [] }
            else { gone with
              state := .askingHome, attempts := 0, frame := some ⟨.fetch, 0, s.ordinal⟩, waiting := stay r.waiting }
            else x)) ∧
      (∀ x, r.waiting = [x] → ¬ FitsIn x.figures b.figures → s.MayServe [x] →
        ∃ u, exec (.handoverAccepted s.own b) s = .next u ∧ u.line = line ∧ u.station = s.settled u.table ∧
          State.MovesOn { s with
            line := line, home := s.home.map (fun y => if y.lot = b.lot then { gone with waiting := [] } else y) }
            u x)) ∧
    (∀ (i : Nat) (e : LotEntry),
      s.line.transmission = some ⟨.entry i, .handover, q, some ⟨s.own, .handover b⟩⟩ → s.OneEntry b.lot i e →
      e.lot = some b.lot → (e.state = .owned ∨ e.state = .ownedModified) → e.frame = some g →
      let gone : LotEntry := { e with
        state := .copy, figures := some b.figures, publishTimer := none, queue := [], handingOver := false
        castout := false, frame := none }
      (e.waiting = [] → e.incoming = none →
        exec (.handoverAccepted s.own b) s = .next { s with
          line := line, table := s.table.set i gone, station := s.settled (s.table.set i gone) }) ∧
      (∀ c : Incoming, e.waiting = [] → e.incoming = some c →
        (c.waiting = [] →
          let e' : LotEntry := { gone with incoming := none }
          exec (.handoverAccepted s.own b) s = .next { s with
            line := line, table := s.table.set i e', station := s.settled (s.table.set i e') }) ∧
        (c.waiting ≠ [] →
          let e' : LotEntry := { LotEntry.cleared with
            lot := some c.lot, state := .asking, lastUse := s.ordinal, lastDebit := e.lastDebit, waiting := c.waiting
            frame := some ⟨.fetch, 0, s.ordinal + 1⟩ }
          exec (.handoverAccepted s.own b) s = .next { s with
            line := line, ordinal := s.ordinal + 2, table := s.table.set i e'
            station := s.settled (s.table.set i e') })) ∧
      (e.incoming = none → s.MayEnd (aside e.waiting) →
        ∃ u, exec (.handoverAccepted s.own b) s = .next u ∧ s.EndRefused u (aside e.waiting) ∧ u.line = line ∧
          u.station = s.settled u.table ∧ u.home = s.home ∧
          u.table = s.table.set i (if stay e.waiting = [] then { gone with waiting := [] }
            else { gone with
              state := .asking, attempts := 0, fetchTimer := none, frame := some ⟨.fetch, 0, s.ordinal⟩
              waiting := stay e.waiting })) ∧
      (∀ x, e.incoming = none → e.waiting = [x] → ¬ FitsIn x.figures b.figures → s.MayServe [x] →
        ∃ u, exec (.handoverAccepted s.own b) s = .next u ∧ u.line = line ∧ u.station = s.settled u.table ∧
          State.MovesOn { s with line := line, table := s.table.set i { gone with waiting := [] } } u x))

/-- A third party of a HANDOVER, and every station but the sender of a NOTICE, takes the figures into its record; the
sender of a NOTICE whose figures still stand becomes OWNED (R129, R139, R140); in LEAVING and SERVING too (R122, R145).
An own frame is told by the transmission held (log entry 5). -/
def Obligations.PublishedFiguresAreHeard : Prop :=
  ∀ (s : State) (sender lot : Nat) (f : Figures) (d : Departure), s.planLot lot = some d →
    f.weight ≤ d.capacity.weight → f.litres ≤ d.capacity.litres → f.pieces ≤ d.capacity.pieces →
    (∀ c, s.Hears sender →
      (c = .noticeAccepted sender lot f ∨
        ∃ b, c = .handoverAccepted sender b ∧ b.lot = lot ∧ b.figures = f ∧ b.recipient ≠ s.own ∧ b.queue.length ≤ 31) →
      (∀ r : HomeRecord, s.OneHome lot r →
        let after (r' : HomeRecord) : State := { s with
          line := s.line.heard sender, home := s.home.map (fun x => if x.lot = lot then r' else x)
          station := s.settled s.table }
        (r.state = .away ∨ r.state = .unknown →
          exec c s = .next (after { r with state := .away, lastSeen := some f })) ∧
        (r.state = .askingHome → exec c s = .next (after { r with
          lastSeen := some f
          fetchTimer := if r.fetchTimer = none then none else some s.config.fetchTimeout })) ∧
        (r.state = .atHome ∨ r.state = .ended → exec c s = .next { s with
          line := s.line.heard sender, station := s.settled s.table })) ∧
      (∀ (i : Nat) (e : LotEntry), s.OneEntry lot i e →
        ∃ m, exec c s = .next { s with
            line := s.line.heard sender, station := s.settled s.table
            table := s.table.set i
              (if e.state = .copy then { e with figures := some f, reclaimed := m }
              else if e.state = .asking then { e with
                figures := some f, reclaimed := m
                fetchTimer := if e.fetchTimer = none then none else some s.config.fetchTimeout }
              else e) } ∧
          (c = .noticeAccepted sender lot f → m = e.reclaimed) ∧
          (∀ b, c = .handoverAccepted sender b → m = (b.reclaimed != 0)))) ∧
    (∀ (i : Nat) (e : LotEntry) (g : PendingFrame) (q : Nat), s.held = false → s.Acts → s.line.state = .active →
      s.OneEntry lot i e → e.lot = some lot →
      e.state = .ownedModified → e.frame = some g → g.kind = .notice → g.queuedAt = q → s.minute < d.cutOff →
      s.line.transmission = some ⟨.entry i, .notice, q, some ⟨s.own, .notice lot f⟩⟩ →
      let line : LineController := { s.line with
        presence := s.line.presence.set s.own ⟨true, some 60000⟩, transmission := none, droveSlot := false
        attempt := none, beaconTimer := some 20000 }
      (e.figures = some f → exec (.noticeAccepted s.own lot f) s = .next { s with
        line := line, table := s.table.set i { e with state := .owned, publishTimer := none, frame := none } }) ∧
      (e.figures ≠ some f → exec (.noticeAccepted s.own lot f) s = .next { s with
        line := line
        table := s.table.set i
          { e with publishTimer := some (s.config.publishDelay * 1000), frame := none } }))

/-- A RECLAIM: an owner's entry gives the lot up and sets LotReclaimed, its requests that fit the figures asking again
and the others, with no candidate left here, refused, one alone moving on to a later one (R109), and a castout's
incoming lot taken up; copies and askers take the figures and the mark; the home that sent it owns the lot again,
marked, debits the requests waiting for it in ring order, and tallies it after its cut-off (R111, R113, R117, R134 to
R137). A LEAVING station that loses its last lot is SERVING (R144), and homes act in both states (R145). An own frame is
told by the transmission held (log entry 5); queuing times are order numbers (log entry 4); that taking up an incoming
lot is a use, and that the entry keeps its last debit, are log entries 13 and 26. -/
def Obligations.ReclaimTakesTheLotBack : Prop :=
  ∀ (s : State) (sender lot : Nat) (f : Figures) (d : Departure), s.planLot lot = some d →
    f.weight ≤ d.capacity.weight → f.litres ≤ d.capacity.litres → f.pieces ≤ d.capacity.pieces →
    let stay (qs : List Request) : List Request := qs.filter (fun x => decide (x.figures.weight ≤ f.weight ∧
      x.figures.litres ≤ f.litres ∧ x.figures.pieces ≤ f.pieces))
    let aside (qs : List Request) : List Request := qs.filter (fun x => !decide (x.figures.weight ≤ f.weight ∧
      x.figures.litres ≤ f.litres ∧ x.figures.pieces ≤ f.pieces))
    (∀ (i : Nat) (e : LotEntry), s.Hears sender → s.OneEntry lot i e → e.lot = some lot →
      ((e.state = .owned ∨ e.state = .ownedModified) →
        let marked : State := { s with
          line := s.line.heard sender, unit := { s.unit with summary := s.unit.summary ||| BitVec.twoPow 16 15 } }
        let gone : LotEntry := { e with
          state := .copy, figures := some f, reclaimed := true, queue := [], handingOver := false
          castout := false, publishTimer := none, frame := none }
        let taking (table : List LotEntry) : State := { marked with table := table, station := s.settled table }
        (e.waiting = [] → e.incoming = none →
          exec (.reclaimAccepted sender lot f) s = .next (taking (s.table.set i gone))) ∧
        (∀ c : Incoming, e.waiting = [] → e.incoming = some c →
          (c.waiting = [] → exec (.reclaimAccepted sender lot f) s = .next
            (taking (s.table.set i { gone with incoming := none }))) ∧
          (c.waiting ≠ [] → exec (.reclaimAccepted sender lot f) s = .next { taking (s.table.set i { LotEntry.cleared with
              lot := some c.lot, state := .asking, lastUse := s.ordinal, lastDebit := e.lastDebit, waiting := c.waiting
              frame := some ⟨.fetch, 0, s.ordinal + 1⟩ }) with ordinal := s.ordinal + 2 })) ∧
        (e.incoming = none → s.MayEnd (aside e.waiting) →
          ∃ u, exec (.reclaimAccepted sender lot f) s = .next u ∧ marked.EndRefused u (aside e.waiting) ∧
            u.line = marked.line ∧ u.station = s.settled u.table ∧ u.home = s.home ∧
            u.table = s.table.set i (if stay e.waiting = [] then { gone with waiting := [] }
              else { gone with
                state := .asking, attempts := 0, fetchTimer := none, frame := some ⟨.fetch, 0, s.ordinal⟩
                waiting := stay e.waiting })) ∧
        (∀ q, e.incoming = none → e.waiting = [q] → ¬ FitsIn q.figures f → s.MayServe [q] →
          ∃ u, exec (.reclaimAccepted sender lot f) s = .next u ∧ u.line = marked.line ∧
            u.station = s.settled u.table ∧
            State.MovesOn { marked with table := s.table.set i { gone with waiting := [] } } u q)) ∧
      ((e.state = .copy ∨ e.state = .free) →
        exec (.reclaimAccepted sender lot f) s = .next { s with
          line := s.line.heard sender, station := s.settled s.table
          table := s.table.set i
            { e with state := .copy, figures := some f, reclaimed := true, unreachable := none, frame := none } }) ∧
      (e.state = .asking → e.frame = none →
        exec (.reclaimAccepted sender lot f) s = .next { s with
          line := s.line.heard sender, station := s.settled s.table
          ordinal := s.ordinal + 1
          table := s.table.set i
            { e with
              figures := some f, reclaimed := true, attempts := 0, fetchTimer := none
              frame := some ⟨.fetch, 0, s.ordinal⟩ } })) ∧
    (∀ (r : HomeRecord) (g : PendingFrame) (q : Nat), s.held = false → s.Acts → s.line.state = .active →
      s.OneHome lot r →
      (r.state = .away ∨ r.state = .unknown ∨ r.state = .askingHome) → r.frame = some g → g.kind = .reclaim →
      g.queuedAt = q →
      s.line.transmission = some ⟨.home lot, .reclaim, q, some ⟨s.own, .reclaim lot f⟩⟩ →
      let back (left : Figures) (g : Option PendingFrame) : List HomeRecord := s.home.map (fun x => if x.lot = lot then
        { r with
          state := .atHome, figures := left, lastSeen := none, reclaimed := true, queue := [], attempts := 0
          fetchTimer := none, frame := g, waiting := [] }
        else x)
      (r.waiting = [] →
        (s.minute < d.cutOff → exec (.reclaimAccepted s.own lot f) s = .next { s with
          line := s.line.delivered s.own, station := s.settled s.table, home := back f none }) ∧
        (d.cutOff ≤ s.minute → exec (.reclaimAccepted s.own lot f) s = .next { s with
          line := s.line.delivered s.own, station := s.settled s.table, ordinal := s.ordinal + 1
          home := back f (some ⟨.tally, 0, s.ordinal⟩) })) ∧
      (∀ n, s.MayArrive d f r.waiting n →
        let out := s.arrival d f r.waiting
        ∃ u g', exec (.reclaimAccepted s.own lot f) s = .next u ∧ s.Served u d true out.1 out.2.1 n ∧
          u.home = back out.2.2 g' ∧ u.table = s.table ∧ u.line = s.line.delivered s.own ∧
          u.station = s.settled s.table ∧ (s.minute < d.cutOff → g' = none) ∧
          (d.cutOff ≤ s.minute → ∃ k, g' = some ⟨.tally, 0, k⟩)))

/-- A TALLY, another station's or this station's own: the home record is ENDED with the TALLY's figures, an entry of the
lot is FREE with no lot ID, an ENDED record is unchanged, a castout's incoming place is dropped; requests waiting on the
lot, with no candidate left here, are refused, and one alone moves on to a later candidate or, under the mask, is
labelled Dispatch pending (R109, R114). A LEAVING station whose last lot ends is SERVING (R144). The ages kept by the
freed entry and by one made then are log entry 26, uses log entry 13; an own frame is told by the transmission held (log
entry 5); order numbers are log entry 4. -/
def Obligations.TallyEndsTheLot : Prop :=
  ∀ (s : State) (sender lot : Nat) (f : Figures) (d : Departure), s.planLot lot = some d →
    f.weight ≤ d.capacity.weight → f.litres ≤ d.capacity.litres → f.pieces ≤ d.capacity.pieces →
    let ended (r : HomeRecord) : HomeRecord := if r.state = .ended then r
      else { r with
        state := .ended, figures := f, lastSeen := none, queue := [], handingOver := false, attempts := 0
        fetchTimer := none, frame := none }
    let freed (e : LotEntry) : LotEntry := { LotEntry.cleared with lastUse := e.lastUse, lastDebit := e.lastDebit }
    (s.Hears sender →
      (∀ r : HomeRecord, s.OneHome lot r → s.entryOf lot = none → s.incomingOf lot = none →
        (r.waiting = [] → exec (.tallyAccepted sender lot f) s = .next { s with
          line := s.line.heard sender, station := s.settled s.table
          home := s.home.map (fun x => if x.lot = lot then ended r else x) }) ∧
        (s.MayEnd r.waiting → ∃ u, exec (.tallyAccepted sender lot f) s = .next u ∧ s.EndRefused u r.waiting ∧
          u.home = s.home.map (fun x => if x.lot = lot then { ended r with waiting := [] } else x) ∧
          u.table = s.table ∧ u.line = s.line.heard sender ∧ u.station = s.settled s.table) ∧
        (∀ q, r.waiting = [q] → s.MayServe [q] → ∃ u, exec (.tallyAccepted sender lot f) s = .next u ∧
          State.MovesOn { s with
            line := s.line.heard sender
            home := s.home.map (fun x => if x.lot = lot then { ended r with waiting := [] } else x) } u q ∧
          u.line = s.line.heard sender ∧ u.station = s.settled u.table)) ∧
      (∀ (i : Nat) (e : LotEntry), s.OneEntry lot i e → e.incoming = none → s.incomingOf lot = none →
        (e.waiting = [] → exec (.tallyAccepted sender lot f) s = .next { s with
          line := s.line.heard sender, table := s.table.set i (freed e)
          station := s.settled (s.table.set i (freed e)) }) ∧
        (s.MayEnd e.waiting → ∃ u, exec (.tallyAccepted sender lot f) s = .next u ∧ s.EndRefused u e.waiting ∧
          u.table = s.table.set i (freed e) ∧ u.home = s.home ∧ u.line = s.line.heard sender ∧
          u.station = s.settled u.table) ∧
        (∀ q, e.waiting = [q] → s.MayServe [q] → ∃ u, exec (.tallyAccepted sender lot f) s = .next u ∧
          State.MovesOn { s with line := s.line.heard sender, table := s.table.set i (freed e) } u q ∧
          u.line = s.line.heard sender ∧ u.station = s.settled u.table)) ∧
      (∀ (i : Nat) (e : LotEntry) (c : Incoming), s.findHome lot = none → s.entryOf lot = none →
        s.incomingOf lot = some i → s.table[i]? = some e → e.incoming = some c → s.MayEnd c.waiting →
        ∃ u, exec (.tallyAccepted sender lot f) s = .next u ∧ s.EndRefused u c.waiting ∧
          u.table = s.table.set i { e with incoming := none } ∧ u.home = s.home ∧ u.line = s.line.heard sender ∧
          u.station = s.settled u.table)) ∧
    (s.held = false → s.Acts → s.line.state = .active → ∀ (g : PendingFrame) (q : Nat), g.kind = .tally →
      g.queuedAt = q → s.incomingOf lot = none →
      (∀ r : HomeRecord, s.OneHome lot r → s.entryOf lot = none → r.state = .atHome →
        r.waiting = [] → r.frame = some g →
        s.line.transmission = some ⟨.home lot, .tally, q, some ⟨s.own, .tally lot f⟩⟩ →
        exec (.tallyAccepted s.own lot f) s = .next { s with
          line := s.line.delivered s.own, station := s.settled s.table
          home := s.home.map (fun x => if x.lot = lot then ended r else x) }) ∧
      (∀ (i : Nat) (e : LotEntry), s.OneEntry lot i e →
        (e.state = .owned ∨ e.state = .ownedModified) → e.waiting = [] → e.incoming = none → e.frame = some g →
        s.line.transmission = some ⟨.entry i, .tally, q, some ⟨s.own, .tally lot f⟩⟩ →
        exec (.tallyAccepted s.own lot f) s = .next { s with
          line := s.line.delivered s.own, table := s.table.set i (freed e)
          station := s.settled (s.table.set i (freed e)) }))

/-- An accepted FETCH joins the owner's queue and gives it a HANDOVER to its head, or joins it behind a HANDOVER already
pending; an asker's or an asking home's own FETCH starts its timer; a STALL makes the lot's home ask, a pending RECLAIM
staying (R123 to R125, R133); in LEAVING and SERVING too (R122, R145). An own frame is told by the transmission held
(log entry 5); queuing times are order numbers (log entry 4). -/
def Obligations.FetchAndStallReachTheRecord : Prop :=
  ∀ (s : State) (sender lot : Nat) (d : Departure), s.planLot lot = some d →
    (∀ r : HomeRecord, s.Hears sender → s.OneHome lot r →
      let after (r' : HomeRecord) : State := { s with
        line := s.line.heard sender, station := s.settled s.table
        ordinal := s.ordinal + 1
        home := s.home.map (fun x => if x.lot = lot then r' else x) }
      (r.state = .atHome → r.frame = none → sender ∉ r.queue →
        exec (.fetchAccepted sender lot) s = .next (after { r with
          queue := r.queue ++ [sender], handingOver := true
          frame := some ⟨.handover, (r.queue ++ [sender]).headD sender, s.ordinal⟩ })) ∧
      (∀ g, r.state = .atHome → r.frame = some g → g.kind = .handover → sender ∉ r.queue →
        exec (.fetchAccepted sender lot) s = .next (after { r with queue := r.queue ++ [sender] })) ∧
      ((r.state ≠ .atHome ∨ sender ∈ r.queue ∨ ∃ g, r.frame = some g ∧ g.kind = .tally) →
        exec (.fetchAccepted sender lot) s = .next { s with
          line := s.line.heard sender, station := s.settled s.table }) ∧
      ((r.state = .away ∨ r.state = .unknown) → r.frame = none →
        exec (.stallAccepted sender lot) s = .next (after
          { r with state := .askingHome, attempts := 0, frame := some ⟨.fetch, 0, s.ordinal⟩ })) ∧
      (∀ g, (r.state = .away ∨ r.state = .unknown) → r.frame = some g → g.kind = .reclaim →
        exec (.stallAccepted sender lot) s = .next (after { r with state := .askingHome, attempts := 0 })) ∧
      ((r.state = .atHome ∨ r.state = .askingHome ∨ r.state = .ended) →
        exec (.stallAccepted sender lot) s = .next { s with
          line := s.line.heard sender, station := s.settled s.table })) ∧
    (∀ (i : Nat) (e : LotEntry), s.Hears sender → s.OneEntry lot i e →
      ((e.state = .owned ∨ e.state = .ownedModified) → (e.frame = none ∨ ∃ g, e.frame = some g ∧ g.kind = .notice) →
        sender ∉ e.queue →
        exec (.fetchAccepted sender lot) s = .next { s with
          line := s.line.heard sender, station := s.settled s.table
          ordinal := s.ordinal + 1
          table := s.table.set i
            { e with
              queue := e.queue ++ [sender], handingOver := true, publishTimer := none
              frame := some ⟨.handover, (e.queue ++ [sender]).headD sender, s.ordinal⟩ } }) ∧
      (∀ g, (e.state = .owned ∨ e.state = .ownedModified) → e.frame = some g → g.kind = .handover → sender ∉ e.queue →
        exec (.fetchAccepted sender lot) s = .next { s with
          line := s.line.heard sender, station := s.settled s.table
          ordinal := s.ordinal + 1
          table := s.table.set i { e with queue := e.queue ++ [sender] } }) ∧
      ((e.state ≠ .owned ∧ e.state ≠ .ownedModified) →
        exec (.fetchAccepted sender lot) s = .next { s with
          line := s.line.heard sender, station := s.settled s.table })) ∧
    (∀ (g : PendingFrame) (q : Nat), s.held = false → s.Acts → s.line.state = .active → g.kind = .fetch →
      g.queuedAt = q →
      (∀ (i : Nat) (e : LotEntry), s.OneEntry lot i e → e.state = .asking → e.frame = some g →
        s.line.transmission = some ⟨.entry i, .fetch, q, some ⟨s.own, .fetch lot⟩⟩ →
        exec (.fetchAccepted s.own lot) s = .next { s with
          line := s.line.delivered s.own, station := s.settled s.table
          table := s.table.set i { e with fetchTimer := some s.config.fetchTimeout, frame := none } }) ∧
      (∀ r : HomeRecord, s.OneHome lot r → r.state = .askingHome → r.frame = some g →
        s.line.transmission = some ⟨.home lot, .fetch, q, some ⟨s.own, .fetch lot⟩⟩ →
        exec (.fetchAccepted s.own lot) s = .next { s with
          line := s.line.delivered s.own, station := s.settled s.table
          home := s.home.map (fun x => if x.lot = lot then
            { r with fetchTimer := some s.config.fetchTimeout, frame := none } else x) }))
end

