-- ==== Sys2Proof/Laws/Bytes.lean ====
section
/-! SUPPORT. Numbers and bytes: what `toBytes` writes, `ofBytes` and `field` read back. Cite these; do not unfold them. -/

namespace Sys2Proof.Machine

@[simp] theorem toBytes_length (w n : Nat) : (toBytes w n).length = w := by
  induction w with
  | zero => rfl
  | succ w ih => simp [toBytes, ih]

theorem ofBytes_from (bs : Bytes) (a : Nat) :
    bs.foldl (fun a b => a * 256 + b.toNat) a = a * 256 ^ bs.length + ofBytes bs := by
  induction bs generalizing a with
  | nil => simp [ofBytes]
  | cons b bs ih =>
    simp only [ofBytes, List.foldl_cons, List.length_cons, ih (a * 256 + b.toNat), ih (0 * 256 + b.toNat)]
    ring

theorem ofBytes_cons (b : Byte) (bs : Bytes) : ofBytes (b :: bs) = b.toNat * 256 ^ bs.length + ofBytes bs := by
  rw [ofBytes, List.foldl_cons, ofBytes_from]; simp

theorem ofBytes_append (as bs : Bytes) : ofBytes (as ++ bs) = ofBytes as * 256 ^ bs.length + ofBytes bs := by
  rw [ofBytes, List.foldl_append, ofBytes_from]; rfl

/-- `w` bytes keep a number below 256 to the `w`, and the low part of any other. -/
theorem ofBytes_toBytes (w n : Nat) : ofBytes (toBytes w n) = n % 256 ^ w := by
  induction w with
  | zero => simp [toBytes, ofBytes, Nat.mod_one]
  | succ w ih =>
    rw [toBytes, ofBytes_cons, toBytes_length, ih, BitVec.toNat_ofNat]
    have h := Nat.mod_mul (x := n) (a := 256 ^ w) (b := 256)
    rw [show 256 ^ (w + 1) = 256 ^ w * 256 from Nat.pow_succ .., h, Nat.mul_comm (256 ^ w) (_ % 256), Nat.add_comm]

theorem ofBytes_toBytes_of_lt {w n : Nat} (h : n < 256 ^ w) : ofBytes (toBytes w n) = n := by
  rw [ofBytes_toBytes, Nat.mod_eq_of_lt h]

theorem ofBytes_lt (bs : Bytes) : ofBytes bs < 256 ^ bs.length := by
  induction bs with
  | nil => simp [ofBytes]
  | cons b bs ih =>
    rw [ofBytes_cons, List.length_cons, Nat.pow_succ]
    have := b.isLt
    nlinarith

/-- A field that starts where a known part ends. -/
theorem field_append_left (as bs : Bytes) (off len : Nat) (h : as.length ≤ off) :
    field (as ++ bs) off len = field bs (off - as.length) len := by
  rw [field, field, List.drop_append, List.drop_eq_nil_of_le h, List.nil_append]

/-- The field that a number was written in. -/
theorem field_toBytes (w n : Nat) (bs : Bytes) (h : n < 256 ^ w) : field (toBytes w n ++ bs) 0 w = n := by
  rw [field, List.drop_zero, List.take_append_of_le_length (by simp), List.take_of_length_le (by simp),
    ofBytes_toBytes_of_lt h]

/-- Digit characters: their count, and the number that they spell. -/
@[simp] theorem toDigits_length (w n : Nat) : (toDigits w n).length = w := by
  induction w with
  | zero => rfl
  | succ w ih => simp [toDigits, ih]

end Sys2Proof.Machine
end

