-- ==== Sys2Proof/Laws/Line.lean ====
section
/-! SUPPORT. What the hall line's operations leave alone: `LineStep s t` bounds every change, and each operation of
Machine/Line.lean on a station is one. Cite these; do not unfold the operations. -/

namespace Sys2Proof.Machine

/-- Only the line controller, the summary with its counters, and pending frames change; flags stay set, no presence record,
home record or entry comes or goes. -/
structure LineStep (s t : State) : Prop where
  pending : t.pending = s.pending
  held : t.held = s.held
  response : t.response = s.response
  station : t.station = s.station
  configuration : t.configuration = s.configuration
  timebase : t.timebase = s.timebase
  clock : t.clock = s.clock
  ring : t.ring = s.ring
  store : t.store = s.store
  screen : t.screen = s.screen
  sequence : t.sequence = s.sequence
  home : t.home.map (fun r => { r with frame := none }) = s.home.map (fun r => { r with frame := none })
  table : t.table.map (fun e => { e with frame := none }) = s.table.map (fun e => { e with frame := none })
  presence : t.line.presence.length = s.line.presence.length
  flags : ∀ f, flagSet s.unit.summary f = true → flagSet t.unit.summary f = true
  labels : t.unit.labelsIssued = s.unit.labelsIssued
  refusals : t.unit.recordsRefused = s.unit.recordsRefused
  framesRejected : s.unit.framesRejected ≤ 65535 → t.unit.framesRejected ≤ 65535

namespace LineStep

theorem refl (s : State) : LineStep s s := by constructor <;> first | rfl | simp

theorem trans {s t u : State} (h : LineStep s t) (k : LineStep t u) : LineStep s u where
  pending := k.pending.trans h.pending
  held := k.held.trans h.held
  response := k.response.trans h.response
  station := k.station.trans h.station
  configuration := k.configuration.trans h.configuration
  timebase := k.timebase.trans h.timebase
  clock := k.clock.trans h.clock
  ring := k.ring.trans h.ring
  store := k.store.trans h.store
  screen := k.screen.trans h.screen
  sequence := k.sequence.trans h.sequence
  home := k.home.trans h.home
  table := k.table.trans h.table
  presence := k.presence.trans h.presence
  flags := fun f e => k.flags f (h.flags f e)
  labels := k.labels.trans h.labels
  refusals := k.refusals.trans h.refusals
  framesRejected := fun e => k.framesRejected (h.framesRejected e)

/-- A change of the line controller that keeps the number of presence records. -/
theorem setLine (s : State) (l : LineController) (h : l.presence.length = s.line.presence.length) :
    LineStep s { s with line := l } := by
  constructor
  case presence => exact h
  all_goals first | rfl | simp

theorem raise (s : State) (f : Flag) : LineStep s (s.raise f) := by
  constructor
  case flags => intro g h; simp only [State.raise, setFlag, flagSet, BitVec.getLsbD_or] at *; simp [h]
  all_goals first | rfl | simp [State.raise]

theorem countRejected (s : State) : LineStep s s.countRejected := by
  constructor
  case framesRejected => intro; simp only [State.countRejected, countUp, Config.counterTop]; omega
  all_goals first | rfl | simp [State.countRejected]

theorem markPresent (s : State) (n : Nat) : LineStep s (s.markPresent n) := setLine s _ (by simp)

theorem enterDuplicate (s : State) : LineStep s s.enterDuplicate := by
  unfold State.enterDuplicate
  split
  · exact refl s
  · exact (setLine s _ (by rfl)).trans (raise _ _)

theorem enterFaulted (s : State) : LineStep s s.enterFaulted := (setLine s _ (by rfl)).trans (raise _ _)

theorem failAttempt (s : State) (t : Transmission) : LineStep s (s.failAttempt t) := by
  unfold State.failAttempt
  dsimp only
  split
  · split
    · exact setLine s _ (by rfl)
    · exact (setLine s _ (by rfl)).trans (enterFaulted _)
  · exact setLine s _ (by rfl)

theorem clearFrame (s : State) (o : FrameOwner) : LineStep s (s.clearFrame o) := by
  cases o with
  | home lot =>
    constructor
    case home => simp only [State.clearFrame, State.updateHome, List.map_map]; congr 1; funext r; simp only [Function.comp]; split <;> rfl
    all_goals first | rfl | simp [State.clearFrame, State.updateHome]
  | entry i =>
    constructor
    case table =>
      simp only [State.clearFrame, State.updateEntry]
      refine List.ext_getElem (by simp) fun k _ _ => ?_
      simp only [List.getElem_map, List.getElem_modify]
      split <;> rfl
    all_goals first | rfl | simp [State.clearFrame, State.updateEntry]
  | hello => exact setLine s _ (by rfl)

theorem ownAccepted (s : State) (t : Transmission) : LineStep s (s.ownAccepted t) := by
  unfold State.ownAccepted
  dsimp only
  split
  · exact (setLine s _ (by rfl)).trans (clearFrame _ _)
  · exact setLine s _ (by rfl)

theorem takeFrame (s : State) (f : HallFrame) : LineStep s (s.takeFrame f) := by
  unfold State.takeFrame
  dsimp only
  refine trans ?_ (setLine _ _ (by rfl))
  split
  · exact (markPresent s _).trans (ownAccepted _ _)
  · split
    · exact (markPresent s _).trans (enterDuplicate _)
    · exact markPresent s _

theorem hearRejected (s : State) (drove : Bool) : LineStep s (s.hearRejected drove) := by
  unfold State.hearRejected
  split
  · exact refl s
  · have h : LineStep s { s.countRejected with line.droveSlot := drove && !s.line.sends } := (countRejected s).trans (setLine _ _ (by rfl))
    dsimp only
    split
    · split
      · exact h.trans (failAttempt _ _)
      · exact h.trans (setLine _ _ (by rfl))
    · exact h

end LineStep

end Sys2Proof.Machine
end

