-- ==== Sys2Proof/Laws/LotStep.lean ====
section
/-! SUPPORT. What the lot controller can do to a station, said once: `LotStep s t` bounds every change, and each operation
of Machine/Lots.lean and Machine/Ownership.lean is one. Cite these; do not unfold the operations. -/

namespace Sys2Proof.Machine

/-- The lot controller took `s` to `t`: the line, the station, the store, the screen, the configuration and the ring's
positions are the same, a slot changes only from SEEKING to its completion, flags are only set, counters only rise, the
sequence counter only rises and stays at or below 100,000, no home record or entry comes or goes. -/
structure LotStep (s t : State) : Prop where
  pending : t.pending = s.pending
  held : t.held = s.held
  response : t.response = s.response
  station : t.station = s.station
  configuration : t.configuration = s.configuration
  timebase : t.timebase = s.timebase
  clock : t.clock = s.clock
  store : t.store = s.store
  screen : t.screen = s.screen
  line : t.line = s.line
  put : t.ring.put = s.ring.put
  rate : t.ring.rate = s.ring.rate
  pendingCount : t.ring.pendingCount = s.ring.pendingCount
  consignment : t.ring.consignment = s.ring.consignment
  watchdog : t.ring.watchdog = s.ring.watchdog
  takings : t.ring.takings = s.ring.takings
  framesRejected : t.unit.framesRejected = s.unit.framesRejected
  slotsLength : t.ring.slots.length = s.ring.slots.length
  tableLength : t.table.length = s.table.length
  homeLots : t.home.map (·.lot) = s.home.map (·.lot)
  slots : ∀ i, t.slot i = s.slot i ∨ ((s.slot i).tag = .seeking ∧
    ∃ p d c, (s.slot i).record = some (.parcel p) ∧ t.slot i = (s.slot i).completed p d c)
  flags : ∀ f, flagSet s.unit.summary f = true → flagSet t.unit.summary f = true
  labels : s.unit.labelsIssued ≤ 65535 → s.unit.labelsIssued ≤ t.unit.labelsIssued ∧ t.unit.labelsIssued ≤ 65535
  refusals : s.unit.recordsRefused ≤ 65535 →
    s.unit.recordsRefused ≤ t.unit.recordsRefused ∧ t.unit.recordsRefused ≤ 65535
  sequenceNone : s.sequence = none → t.sequence = none
  sequenceSome : ∀ n, s.sequence = some n → ∃ m, t.sequence = some m ∧ n ≤ m ∧ (n ≤ 100000 → m ≤ 100000)
  ordinal : s.ordinal ≤ t.ordinal

namespace LotStep

theorem refl (s : State) : LotStep s s := by
  constructor
  case sequenceSome => exact fun n e => ⟨n, e, Nat.le_refl _, id⟩
  all_goals first | rfl | simp

theorem trans {s t u : State} (h : LotStep s t) (k : LotStep t u) : LotStep s u := by
  constructor
  case slots =>
    intro i
    rcases h.slots i with h1 | ⟨h1, p, d, c, h2, h3⟩
    · have := k.slots i; rw [h1] at this; exact this
    · rcases k.slots i with k1 | ⟨k1, -⟩
      · right; exact ⟨h1, p, d, c, h2, by rw [k1, h3]⟩
      · rw [h3] at k1; simp [Slot.completed] at k1
  case flags => exact fun f e => k.flags f (h.flags f e)
  case labels => exact fun e => ⟨Nat.le_trans (h.labels e).1 (k.labels (h.labels e).2).1, (k.labels (h.labels e).2).2⟩
  case refusals =>
    exact fun e => ⟨Nat.le_trans (h.refusals e).1 (k.refusals (h.refusals e).2).1, (k.refusals (h.refusals e).2).2⟩
  case sequenceNone => exact fun e => k.sequenceNone (h.sequenceNone e)
  case sequenceSome =>
    intro n e
    obtain ⟨m, e1, l1, b1⟩ := h.sequenceSome n e
    obtain ⟨o, e2, l2, b2⟩ := k.sequenceSome m e1
    exact ⟨o, e2, Nat.le_trans l1 l2, fun x => b2 (b1 x)⟩
  case ordinal => exact Nat.le_trans h.ordinal k.ordinal
  all_goals first
    | (rw [k.pending, h.pending]) | (rw [k.held, h.held]) | (rw [k.response, h.response])
    | (rw [k.station, h.station]) | (rw [k.configuration, h.configuration]) | (rw [k.timebase, h.timebase])
    | (rw [k.clock, h.clock]) | (rw [k.store, h.store]) | (rw [k.screen, h.screen]) | (rw [k.line, h.line])
    | (rw [k.put, h.put]) | (rw [k.rate, h.rate]) | (rw [k.pendingCount, h.pendingCount])
    | (rw [k.consignment, h.consignment]) | (rw [k.watchdog, h.watchdog]) | (rw [k.takings, h.takings])
    | (rw [k.framesRejected, h.framesRejected]) | (rw [k.slotsLength, h.slotsLength])
    | (rw [k.tableLength, h.tableLength]) | (rw [k.homeLots, h.homeLots])

/-- A change of the records of lots and the order number alone. -/
theorem ofRecords (s : State) (home : List HomeRecord) (table : List LotEntry) (ordinal : Nat)
    (hh : home.map (·.lot) = s.home.map (·.lot)) (ht : table.length = s.table.length) (ho : s.ordinal ≤ ordinal) :
    LotStep s { s with home := home, table := table, ordinal := ordinal } := by
  constructor
  case homeLots => exact hh
  case tableLength => exact ht
  case ordinal => exact ho
  case sequenceSome => exact fun n e => ⟨n, e, Nat.le_refl _, id⟩
  all_goals first | rfl | simp [State.slot]

theorem nextOrdinal (s : State) : LotStep s s.nextOrdinal :=
  ofRecords s s.home s.table (s.ordinal + 1) rfl rfl (Nat.le_succ _)

theorem updateEntry (s : State) (i : Nat) (f : LotEntry → LotEntry) : LotStep s (s.updateEntry i f) :=
  ofRecords s s.home (s.table.modify i f) s.ordinal rfl (List.length_modify ..) (Nat.le_refl _)

theorem updateHome (s : State) (lot : Nat) (f : HomeRecord → HomeRecord) (hf : ∀ r, (f r).lot = r.lot) :
    LotStep s (s.updateHome lot f) := by
  refine ofRecords s (s.home.map (fun r => if r.lot = lot then f r else r)) s.table s.ordinal ?_ rfl (Nat.le_refl _)
  rw [List.map_map]
  apply List.map_congr_left
  intro r _
  simp only [Function.comp_apply]
  split <;> simp [hf]

theorem useEntry (s : State) (i : Nat) : LotStep s (s.useEntry i) :=
  (updateEntry s i _).trans (nextOrdinal _)

theorem setFlag_mono (w : BitVec 16) (f g : Flag) (h : flagSet w g = true) : flagSet (setFlag w f) g = true := by
  unfold flagSet setFlag at *
  simp [h]

theorem raise (s : State) (f : Flag) : LotStep s (s.raise f) := by
  constructor
  case flags => exact fun g h => setFlag_mono _ f g h
  case sequenceSome => exact fun n e => ⟨n, e, Nat.le_refl _, id⟩
  all_goals first | rfl | simp [State.raise, State.slot]

theorem countUp_le (n : Nat) (h : n ≤ 65535) : n ≤ countUp n ∧ countUp n ≤ 65535 := by
  unfold countUp Config.counterTop; omega

theorem slot_updateSlot (s : State) (i j : Nat) (f : Slot → Slot) :
    (s.updateSlot i f).slot j = if i = j ∧ j < s.ring.slots.length then f (s.slot j) else s.slot j := by
  simp only [State.updateSlot, State.slot, List.getD_eq_getElem?_getD, List.getElem?_modify]
  by_cases hj : j < s.ring.slots.length
  · simp only [List.getElem?_eq_getElem hj, Option.getD_some, hj, and_true]
    split <;> rfl
  · simp [hj]

theorem slot_of_ge (s : State) (j : Nat) (h : ¬ j < s.ring.slots.length) : s.slot j = Slot.vacant := by
  simp [State.slot, List.getD_eq_getElem?_getD, List.getElem?_eq_none (Nat.le_of_not_lt h)]

theorem completeSeeking (s : State) (i : Nat) (d : Option DispatchFields) (c : Completion) :
    LotStep s (s.completeSeeking i d c) := by
  unfold State.completeSeeking
  split
  case isFalse => exact refl s
  case isTrue hs =>
    unfold State.completeParcel
    split
    case h_2 => exact refl s
    case h_1 p _ hr =>
      cases c with
      | labelled a b =>
        constructor
        case slots =>
          intro j
          have e : (((s.updateSlot i fun x => x.completed p d (.labelled a b)).countLabel).slot j)
              = (s.updateSlot i fun x => x.completed p d (.labelled a b)).slot j := rfl
          rw [e, slot_updateSlot]
          split
          case isTrue h => right; obtain ⟨rfl, -⟩ := h; exact ⟨hs, p, d, _, hr, rfl⟩
          case isFalse => left; rfl
        case labels => exact fun h => countUp_le _ h
        case refusals => exact fun h => ⟨Nat.le_refl _, h⟩
        case sequenceSome => exact fun n e => ⟨n, e, Nat.le_refl _, id⟩
        case slotsLength => simp [State.updateSlot, State.countLabel]
        all_goals first | rfl | simp [State.countLabel, State.updateSlot]
      | refused w =>
        constructor
        case slots =>
          intro j
          have e : (((s.updateSlot i fun x => x.completed p d (.refused w)).countRefusal).slot j)
              = (s.updateSlot i fun x => x.completed p d (.refused w)).slot j := rfl
          rw [e, slot_updateSlot]
          split
          case isTrue h => right; obtain ⟨rfl, -⟩ := h; exact ⟨hs, p, d, _, hr, rfl⟩
          case isFalse => left; rfl
        case labels => exact fun h => ⟨Nat.le_refl _, h⟩
        case refusals => exact fun h => countUp_le _ h
        case sequenceSome => exact fun n e => ⟨n, e, Nat.le_refl _, id⟩
        case slotsLength => simp [State.updateSlot, State.countRefusal]
        all_goals first | rfl | simp [State.countRefusal, State.updateSlot]

theorem refuseSeeking (s : State) (ms : List Nat) (d : Option DispatchFields) (w : Reason) :
    LotStep s (s.refuseSeeking ms d w) := by
  unfold State.refuseSeeking
  induction ms generalizing s with
  | nil => exact refl s
  | cons i is ih => exact (completeSeeking s i d _).trans (ih _)

theorem labelMembers (s : State) (d : DispatchFields) (b : Bytes) (n : Nat) (ms : List Nat) :
    LotStep s (s.labelMembers d b n ms) ∧ (s.labelMembers d b n ms).sequence = s.sequence := by
  induction ms generalizing s n with
  | nil => exact ⟨refl s, rfl⟩
  | cons i is ih =>
    have h := completeSeeking s i (some d) (.labelled (trackingNumber s.config n) b)
    have e : (s.completeSeeking i (some d) (.labelled (trackingNumber s.config n) b)).sequence = s.sequence := by
      unfold State.completeSeeking State.completeParcel; split <;> (try split) <;> rfl
    exact ⟨h.trans (ih _ _).1, by rw [State.labelMembers, (ih _ _).2, e]⟩

theorem advanceSequence (s : State) (n : Nat) (h : ∀ c, s.sequence = some c → c + n ≤ 100000) :
    LotStep s (s.advanceSequence n) := by
  constructor
  case sequenceNone => intro e; simp [State.advanceSequence, e]
  case sequenceSome =>
    intro c e
    exact ⟨c + n, by simp [State.advanceSequence, e], Nat.le_add_right .., fun _ => h c e⟩
  all_goals first | rfl | simp [State.advanceSequence, State.slot]

theorem canCover_bound (s : State) (n : Nat) (h : s.canCover n = true) :
    ∀ c, s.sequence = some c → c + n ≤ 100000 := by
  intro c e
  unfold State.canCover at h
  rw [e] at h
  exact of_decide_eq_true h

theorem labelRequest (s : State) (q : Request) (d : DispatchFields) (h : s.canCover q.pieces = true) :
    LotStep s (s.labelRequest q d) := by
  unfold State.labelRequest
  have k := labelMembers s d (s.consignmentNumber q (s.sequence.getD 0)) (s.sequence.getD 0) q.members
  refine k.1.trans (advanceSequence _ _ ?_)
  rw [k.2]
  exact canCover_bound s _ h

theorem refuseNoNumber (s : State) (q : Request) : LotStep s (s.refuseNoNumber q) :=
  (raise s .noNumber).trans (refuseSeeking _ _ _ _)

theorem settleNoDispatch (s : State) (q : Request) : LotStep s (s.settleNoDispatch q) := by
  unfold State.settleNoDispatch
  refine (raise s .noDispatch).trans ?_
  simp only
  split
  · split
    · exact labelRequest _ _ _ (by assumption)
    · exact refuseNoNumber _ _
  · exact refuseSeeking _ _ _ _

theorem queueRecord (s : State) (ref : RecordRef) (k : FrameKind) (n : Nat) : LotStep s (s.queue ref k n) := by
  unfold State.queue
  cases ref with
  | home lot => exact (updateHome s lot _ (by intro _; rfl)).trans (nextOrdinal _)
  | entry i => exact (updateEntry s i _).trans (nextOrdinal _)

theorem join (s : State) (ref : RecordRef) (lot : Nat) (q : Request) : LotStep s (s.join ref lot q) := by
  cases ref with
  | home l => exact updateHome s l _ (by intro _; rfl)
  | entry i => exact updateEntry s i _

theorem setWaiting (s : State) (ref : RecordRef) (qs : List Request) : LotStep s (s.setWaiting ref qs) := by
  cases ref with
  | home l => exact updateHome s l _ (by intro _; rfl)
  | entry i => exact updateEntry s i _

theorem takeFigures (s : State) (ref : RecordRef) (q : Figures) : LotStep s (s.takeFigures ref q) := by
  cases ref with
  | home l => exact updateHome s l _ (by intro _; rfl)
  | entry i => exact (updateEntry s i _).trans (nextOrdinal _)

theorem takeFigures_canCover (s : State) (ref : RecordRef) (q : Figures) (n : Nat) :
    (s.takeFigures ref q).canCover n = s.canCover n := by
  cases ref <;> rfl

theorem debit {s t : State} {ref : RecordRef} {q : Request} (h : s.debit ref q = some t) : LotStep s t := by
  unfold State.debit at h
  split at h
  · cases h
  · split at h
    · cases h
    · split at h
      · cases h
        refine (takeFigures s ref q.figures).trans (labelRequest _ _ _ ?_)
        rw [takeFigures_canCover]; assumption
      · cases h; exact refuseNoNumber s q

theorem makeEntry (s : State) (i lot : Nat) (st : EntryState) (ws : List Request) :
    LotStep s (s.makeEntry i lot st ws) := (updateEntry s i _).trans (nextOrdinal _)

theorem castOut (s : State) (i lot : Nat) (q : Request) : LotStep s (s.castOut i lot q) :=
  (queueRecord s _ _ _).trans (updateEntry _ _ _)

theorem askHome (s : State) (lot : Nat) : LotStep s (s.askHome lot) :=
  (updateHome s lot _ (by intro _; rfl)).trans (queueRecord _ _ _ _)

theorem askEntry (s : State) (i : Nat) : LotStep s (s.askEntry i) :=
  (updateEntry s i _).trans (queueRecord _ _ _ _)

/-- The state a try ends in. -/
def endOf : TryResult → State
  | .settled s | .movesOn s | .noEntry s => s

theorem tryDebit (s : State) (ref : RecordRef) (q : Request) : LotStep s (endOf (s.tryDebit ref q)) := by
  unfold State.tryDebit
  split
  · exact debit (by assumption)
  · exact refl s

theorem tryHome (s : State) (q : Request) (lot : Nat) : LotStep s (endOf (s.tryHome q lot)) := by
  unfold State.tryHome
  repeat' split
  all_goals try simp only [endOf]
  all_goals first
    | exact refl s
    | exact tryDebit _ _ _
    | exact join _ _ _ _
    | exact (askHome _ _).trans (join _ _ _ _)

theorem tryEntry (s : State) (q : Request) (lot i : Nat) : LotStep s (endOf (s.tryEntry q lot i)) := by
  unfold State.tryEntry
  simp only
  repeat' split
  all_goals try simp only [endOf]
  all_goals first
    | exact refl s
    | exact tryDebit _ _ _
    | exact join _ _ _ _
    | exact (askEntry _ _).trans (join _ _ _ _)

theorem tryNewEntry (s : State) (q : Request) (lot : Nat) : LotStep s (endOf (s.tryNewEntry q lot)) := by
  unfold State.tryNewEntry
  repeat' split
  all_goals simp only [endOf]
  all_goals first
    | exact refl s
    | exact castOut _ _ _ _
    | exact (makeEntry _ _ _ _ _).trans (queueRecord _ _ _ _)

theorem tryForeign (s : State) (q : Request) (lot : Nat) : LotStep s (endOf (s.tryForeign q lot)) := by
  unfold State.tryForeign
  split
  · exact (useEntry _ _).trans (tryEntry _ _ _ _)
  · split
    · exact (useEntry _ _).trans (updateEntry _ _ _)
    · exact tryNewEntry _ _ _

theorem tryCandidate (s : State) (q : Request) (c : Candidate) : LotStep s (endOf (s.tryCandidate q c)) := by
  unfold State.tryCandidate
  split
  · exact refl s
  · split
    · exact tryHome _ _ _
    · exact tryForeign _ _ _

theorem tryAll (s : State) (q : Request) (cs : List Candidate) : LotStep s (s.tryAll q cs) := by
  induction cs generalizing s q with
  | nil => exact settleNoDispatch s q
  | cons c cs ih =>
    have h := tryCandidate s q c
    unfold State.tryAll
    split
    all_goals (rename_i e; rw [e] at h)
    · exact h
    · exact h.trans (ih _ _)
    · exact h.trans (settleNoDispatch _ _)

theorem startRequest (s : State) (q : Request) : LotStep s (s.startRequest q) := tryAll _ _ _

theorem moveOn (s : State) (q : Request) : LotStep s (s.moveOn q) := tryAll _ _ _

theorem foldl {α : Type} (f : State → α → State) (hf : ∀ s a, LotStep s (f s a)) (s : State) (as : List α) :
    LotStep s (as.foldl f s) := by
  induction as generalizing s with
  | nil => exact refl s
  | cons a as ih => exact (hf s a).trans (ih _)

theorem moveOnAll (s : State) (qs : List Request) : LotStep s (s.moveOnAll qs) := foldl _ moveOn s qs

theorem trial (s : State) (ref : RecordRef) (qs : List Request) : LotStep s (s.trial ref qs).1 := by
  induction qs generalizing s with
  | nil => exact refl s
  | cons q qs ih =>
    unfold State.trial
    split
    · rename_i s' e; exact (debit e).trans (ih s')
    · exact ih s

theorem debitWaiting (s : State) (ref : RecordRef) : LotStep s (s.debitWaiting ref) :=
  ((setWaiting s ref []).trans (trial _ _ _)).trans (moveOnAll _ _)

theorem testTally (s : State) (ref : RecordRef) : LotStep s (s.testTally ref) := by
  unfold State.testTally
  split
  · exact queueRecord _ _ _ _
  · exact refl s

theorem testTallyOf (s : State) (lot : Nat) : LotStep s (s.testTallyOf lot) := by
  unfold State.testTallyOf
  split
  · exact testTally _ _
  · exact refl s

theorem releaseWaiting (s : State) (lot : Nat) : LotStep s (s.releaseWaiting lot).1 := by
  unfold State.releaseWaiting
  have h1 := updateHome s lot (fun r => { r with waiting := [] }) (by intro _; rfl)
  simp only
  split <;> split
  · exact (h1.trans (updateEntry _ _ _)).trans (updateEntry _ _ _)
  · exact h1.trans (updateEntry _ _ _)
  · exact h1.trans (updateEntry _ _ _)
  · exact h1

theorem reachCutOff (s : State) (lot : Nat) : LotStep s (s.reachCutOff lot) :=
  ((releaseWaiting s lot).trans (moveOnAll _ _)).trans (testTallyOf _ _)

/-! ## Ownership -/

theorem takeUpIncoming (s : State) (i : Nat) : LotStep s (s.takeUpIncoming i) := by
  unfold State.takeUpIncoming
  split
  · exact refl s
  · split
    · exact updateEntry _ _ _
    · exact (makeEntry _ _ _ _ _).trans (queueRecord _ _ _ _)

theorem askAgain (s : State) (ref : RecordRef) (f : Figures) : LotStep s (s.askAgain ref f) := by
  unfold State.askAgain
  simp only
  refine LotStep.trans ?_ (moveOnAll _ _)
  split
  · exact setWaiting _ _ _
  · split
    · exact (setWaiting _ _ _).trans (askHome _ _)
    · exact (setWaiting _ _ _).trans (askEntry _ _)

theorem giveUpHome (s : State) (lot : Nat) (f : Figures) : LotStep s (s.giveUpHome lot f) :=
  (updateHome s lot _ (by intro _; rfl)).trans (askAgain _ _ _)

theorem giveUpEntry (s : State) (i : Nat) (f : Figures) : LotStep s (s.giveUpEntry i f) :=
  ((updateEntry s i _).trans (askAgain _ _ _)).trans (takeUpIncoming _ _)

theorem handoverSent (s : State) (lot : Nat) (f : Figures) : LotStep s (s.handoverSent lot f) := by
  unfold State.handoverSent
  repeat' split
  all_goals first | exact refl s | exact giveUpHome _ _ _ | exact giveUpEntry _ _ _

theorem homeOnward (s : State) (lot : Nat) : LotStep s (s.homeOnward lot) := by
  unfold State.homeOnward
  repeat' split
  all_goals first | exact refl s | exact queueRecord _ _ _ _ | exact testTally _ _

theorem entryOnward (s : State) (i : Nat) : LotStep s (s.entryOnward i) := by
  unfold State.entryOnward
  simp only
  repeat' split
  all_goals first | exact queueRecord _ _ _ _ | exact testTally _ _

theorem homeReceives (s : State) (lot : Nat) (f : Figures) (m : Bool) (q : List Nat) :
    LotStep s (s.homeReceives lot f m q) :=
  ((updateHome s lot _ (by intro _; rfl)).trans (debitWaiting _ _)).trans (homeOnward _ _)

theorem entryTakes (s : State) (i lot : Nat) (f : Figures) (m : Bool) (q : List Nat) :
    LotStep s (s.entryTakes i lot f m q) := (updateEntry s i _).trans (nextOrdinal _)

theorem entryReceives (s : State) (i lot : Nat) (f : Figures) (m : Bool) (q : List Nat) :
    LotStep s (s.entryReceives i lot f m q) :=
  ((entryTakes s i lot f m q).trans (debitWaiting _ _)).trans (entryOnward _ _)

theorem takeIncoming (s : State) (lot : Nat) : LotStep s (s.takeIncoming lot).1 := by
  unfold State.takeIncoming
  split
  · exact updateEntry _ _ _
  · exact refl s

theorem returnLot (s : State) (i lot : Nat) : LotStep s (s.returnLot i lot) := by
  unfold State.returnLot
  split
  · exact entryOnward _ _
  · exact (queueRecord _ _ _ _).trans (updateEntry _ _ _)

theorem receiveUnnamed (s : State) (lot : Nat) (f : Figures) (m : Bool) (q : List Nat) :
    LotStep s (s.receiveUnnamed lot f m q) := by
  unfold State.receiveUnnamed
  split
  · exact ((takeIncoming s lot).trans (makeEntry _ _ _ _ _)).trans (entryReceives _ _ _ _ _ _)
  · split
    · exact (((takeIncoming s lot).trans (makeEntry _ _ _ _ _)).trans (entryTakes _ _ _ _ _ _)).trans (returnLot _ _ _)
    · exact refl s

theorem handoverReceived (s : State) (lot : Nat) (f : Figures) (m : Bool) (q : List Nat) :
    LotStep s (s.handoverReceived lot f m q) := by
  unfold State.handoverReceived
  repeat' split
  all_goals first
    | exact refl s | exact homeReceives _ _ _ _ _ | exact entryReceives _ _ _ _ _ _ | exact receiveUnnamed _ _ _ _ _

theorem hears_lot (r : HomeRecord) (f : Figures) (full : Timer) : (r.hears f full).lot = r.lot := by
  unfold HomeRecord.hears; split <;> rfl

theorem hearFigures (s : State) (lot : Nat) (f : Figures) (m : Option Bool) : LotStep s (s.hearFigures lot f m) := by
  unfold State.hearFigures
  split
  · exact updateHome _ _ _ (fun r => hears_lot r _ _)
  · exact updateEntry _ _ _
  · exact refl s

theorem onHandover (s : State) (sender : Nat) (b : HandoverBody) (mine : Bool) :
    LotStep s (s.onHandover sender b mine) := by
  unfold State.onHandover
  split
  · exact refl s
  · simp only
    repeat' split
    all_goals first | exact handoverSent _ _ _ | exact handoverReceived _ _ _ _ _ | exact hearFigures _ _ _ _

theorem reclaimHome (s : State) (lot : Nat) (f : Figures) : LotStep s (s.reclaimHome lot f) :=
  ((updateHome s lot _ (by intro _; rfl)).trans (debitWaiting _ _)).trans (testTally _ _)

theorem loseToReclaim (s : State) (i : Nat) (f : Figures) : LotStep s (s.loseToReclaim i f) :=
  (((updateEntry s i _).trans (raise _ _)).trans (askAgain _ _ _)).trans (takeUpIncoming _ _)

theorem hearReclaim (s : State) (i : Nat) (f : Figures) : LotStep s (s.hearReclaim i f) := by
  unfold State.hearReclaim
  split
  · exact (updateEntry _ _ _).trans (queueRecord _ _ _ _)
  · exact updateEntry _ _ _
  · exact updateEntry _ _ _
  · exact refl s
  · exact refl s

theorem onReclaim (s : State) (lot : Nat) (f : Figures) (mine : Bool) : LotStep s (s.onReclaim lot f mine) := by
  unfold State.onReclaim
  simp only
  repeat' split
  all_goals first
    | exact refl s | exact reclaimHome _ _ _ | exact loseToReclaim _ _ _ | exact hearReclaim _ _ _

theorem dropIncoming (s : State) (lot : Nat) : LotStep s (s.dropIncoming lot) := by
  unfold State.dropIncoming
  split
  · exact updateEntry _ _ _
  · exact refl s

theorem tallied_lot (r : HomeRecord) (f : Figures) : (r.tallied f).lot = r.lot := by
  unfold HomeRecord.tallied; split <;> rfl

theorem onTally (s : State) (lot : Nat) (f : Figures) : LotStep s (s.onTally lot f) := by
  unfold State.onTally
  simp only
  split
  · exact refl s
  · refine LotStep.trans ?_ (moveOnAll _ _)
    split
    · exact ((((releaseWaiting s lot).trans (updateHome _ lot _ (by intro r; exact tallied_lot r _))).trans
        (dropIncoming _ lot)).trans (updateEntry _ _ _)).trans (takeUpIncoming _ _)
    · exact ((releaseWaiting s lot).trans (updateHome _ lot _ (by intro r; exact tallied_lot r _))).trans
        (dropIncoming _ lot)

theorem fetchSent (s : State) (lot : Nat) : LotStep s (s.fetchSent lot) := by
  unfold State.fetchSent
  split
  · exact updateHome _ _ _ (fun r => by split <;> rfl)
  · exact updateEntry _ _ _
  · exact refl s

theorem ownerFetched (s : State) (ref : RecordRef) (n : Nat) : LotStep s (s.ownerFetched ref n) := by
  unfold State.ownerFetched
  simp only
  repeat' split
  all_goals first
    | exact refl s
    | exact (updateHome _ _ _ (by intro _; rfl)).trans (queueRecord _ _ _ _)
    | exact (updateEntry _ _ _).trans (queueRecord _ _ _ _)

theorem onFetch (s : State) (sender lot : Nat) (mine : Bool) : LotStep s (s.onFetch sender lot mine) := by
  unfold State.onFetch
  simp only
  repeat' split
  all_goals first
    | exact refl s | exact (ownerFetched _ _ _).trans (fetchSent _ _) | exact ownerFetched _ _ _

theorem onStall (s : State) (lot : Nat) : LotStep s (s.onStall lot) := by
  unfold State.onStall
  repeat' split
  all_goals first | exact refl s | exact askHome _ _

theorem noticeSent (s : State) (lot : Nat) (f : Figures) : LotStep s (s.noticeSent lot f) := by
  unfold State.noticeSent
  repeat' split
  all_goals first | exact refl s | exact (updateEntry _ _ _).trans (testTally _ _)

theorem onNotice (s : State) (lot : Nat) (f : Figures) (mine was : Bool) : LotStep s (s.onNotice lot f mine was) := by
  unfold State.onNotice
  repeat' split
  all_goals first | exact refl s | exact noticeSent _ _ _ | exact hearFigures _ _ _ _

theorem askingFails (s : State) (i : Nat) : LotStep s (s.askingFails i) :=
  ((queueRecord s _ _ _).trans (updateEntry _ _ _)).trans (moveOnAll _ _)

theorem entryExpiry (s : State) (i : Nat) : LotStep s (s.entryExpiry i) := by
  unfold State.entryExpiry
  simp only
  repeat' split
  all_goals first
    | exact refl s
    | exact (updateEntry _ _ _).trans (updateEntry _ _ _)
    | exact (updateEntry _ _ _).trans (queueRecord _ _ _ _)
    | exact (updateEntry _ _ _).trans (askingFails _ _)

theorem homeExpiry (s : State) (lot : Nat) : LotStep s (s.homeExpiry lot) := by
  unfold State.homeExpiry
  simp only
  repeat' split
  all_goals first
    | exact refl s
    | exact ((updateHome _ _ _ (by intro _; rfl)).trans (queueRecord _ _ _ _)).trans
        (updateHome _ _ _ (by intro _; rfl))
    | exact (updateHome _ _ _ (by intro _; rfl)).trans (queueRecord _ _ _ _)

theorem leaveEntry (s : State) (i : Nat) : LotStep s (s.leaveEntry i) := by
  unfold State.leaveEntry
  simp only
  repeat' split
  all_goals first | exact refl s | exact queueRecord _ _ _ _ | exact updateEntry _ _ _

theorem leaveTable (s : State) : LotStep s s.leaveTable := foldl _ leaveEntry s _

end LotStep

end Sys2Proof.Machine
end

