-- ==== Sys2Proof/Laws/Ring.lean ====
section
/-! SUPPORT. What the ring's operations do to the slots and what they leave alone. Cite these; do not unfold the
operations. -/

namespace Sys2Proof.Machine

/-! ## One slot -/

theorem slot_updateSlot (s : State) (i j : Nat) (f : Slot → Slot) :
    (s.updateSlot i f).slot j = if j = i ∧ i < s.ring.slots.length then f (s.slot i) else s.slot j := by
  simp only [State.slot, State.updateSlot, List.getD_eq_getElem?_getD, List.getElem?_modify]
  by_cases h : i = j
  · subst h
    by_cases h2 : i < s.ring.slots.length
    · simp [h2]
    · simp [h2]
  · simp [h, Ne.symm h]

theorem length_updateSlot (s : State) (i : Nat) (f : Slot → Slot) :
    (s.updateSlot i f).ring.slots.length = s.ring.slots.length := by
  simp [State.updateSlot]

/-- A slot that the engine owns is one of the ring's. -/
theorem lt_of_engineOwns {s : State} {i : Nat} (h : (s.slot i).engineOwns = true) : i < s.ring.slots.length := by
  by_contra hn
  simp [State.slot, List.getD_eq_getElem?_getD, List.getElem?_eq_none (Nat.le_of_not_lt hn), Slot.vacant,
    Slot.engineOwns] at h

/-! ## Completion -/

/-- The slots after a parcel's completion (R72). -/
theorem slot_completeParcel (s : State) (i j : Nat) (d : Option DispatchFields) (c : Completion) (p : ParcelRecord)
    (ho : (s.slot i).engineOwns = true) (hr : (s.slot i).record = some (.parcel p)) :
    (s.completeParcel i d c).slot j = if j = i then (s.slot i).completed p d c else s.slot j := by
  have key : (s.completeParcel i d c).slot j = (s.updateSlot i (fun x => x.completed p d c)).slot j := by
    rw [State.completeParcel, ho, hr]
    cases c <;> rfl
  rw [key, slot_updateSlot]
  simp [lt_of_engineOwns ho]

/-- A slot that the engine does not own stays as it is (R72). -/
theorem completeParcel_skips (s : State) (i : Nat) (d : Option DispatchFields) (c : Completion)
    (ho : (s.slot i).engineOwns = false) : s.completeParcel i d c = s := by
  rw [State.completeParcel, ho]

theorem completeScreen_skips (s : State) (i : Nat) (o : ScreenOutcome) (ho : (s.slot i).engineOwns = false) :
    s.completeScreen i o = s := by
  rw [State.completeScreen, ho]

/-! ## What the ring's operations leave alone -/

/-- Only slots and the summary with its counters change; the summary's flags stay set and no slot comes or goes. -/
structure SlotStep (s t : State) : Prop where
  outside : State.SameOutsideRing s t
  response : t.response = s.response
  ring : t.ring = { s.ring with slots := t.ring.slots }
  length : t.ring.slots.length = s.ring.slots.length
  framesRejected : t.unit.framesRejected = s.unit.framesRejected
  flags : ∀ f, flagSet s.unit.summary f = true → flagSet t.unit.summary f = true
  labels : s.unit.labelsIssued ≤ 65535 → t.unit.labelsIssued ≤ 65535
  refusals : s.unit.recordsRefused ≤ 65535 → t.unit.recordsRefused ≤ 65535

namespace SlotStep

theorem refl (s : State) : SlotStep s s := by
  constructor
  case outside => simp [State.SameOutsideRing]
  all_goals first | rfl | simp

theorem trans {s t u : State} (h : SlotStep s t) (k : SlotStep t u) : SlotStep s u := by
  constructor
  case outside =>
    obtain ⟨a1, a2, a3, a4, a5, a6, a7, a8, a9, a10, a11, a12, a13⟩ := h.outside
    obtain ⟨b1, b2, b3, b4, b5, b6, b7, b8, b9, b10, b11, b12, b13⟩ := k.outside
    exact ⟨b1.trans a1, b2.trans a2, b3.trans a3, b4.trans a4, b5.trans a5, b6.trans a6, b7.trans a7, b8.trans a8,
      b9.trans a9, b10.trans a10, b11.trans a11, b12.trans a12, b13.trans a13⟩
  case response => exact k.response.trans h.response
  case ring => rw [k.ring, h.ring]
  case length => exact k.length.trans h.length
  case framesRejected => exact k.framesRejected.trans h.framesRejected
  case flags => exact fun f e => k.flags f (h.flags f e)
  case labels => exact fun e => k.labels (h.labels e)
  case refusals => exact fun e => k.refusals (h.refusals e)

theorem updateSlot (s : State) (i : Nat) (f : Slot → Slot) : SlotStep s (s.updateSlot i f) := by
  constructor
  case outside => simp [State.SameOutsideRing, State.updateSlot]
  case length => exact length_updateSlot s i f
  all_goals first | rfl | simp [State.updateSlot]

theorem countLabel (s : State) : SlotStep s s.countLabel := by
  constructor
  case outside => simp [State.SameOutsideRing, State.countLabel]
  case labels => intro; simp only [State.countLabel, countUp, Config.counterTop]; omega
  all_goals first | rfl | simp [State.countLabel]

theorem countRefusal (s : State) : SlotStep s s.countRefusal := by
  constructor
  case outside => simp [State.SameOutsideRing, State.countRefusal]
  case refusals => intro; simp only [State.countRefusal, countUp, Config.counterTop]; omega
  all_goals first | rfl | simp [State.countRefusal]

theorem raise (s : State) (f : Flag) : SlotStep s (s.raise f) := by
  constructor
  case outside => simp [State.SameOutsideRing, State.raise]
  case flags => intro g h; simp only [State.raise, setFlag, flagSet, BitVec.getLsbD_or] at *; simp [h]
  all_goals first | rfl | simp [State.raise]

theorem foldl {α : Type} (f : State → α → State) (h : ∀ s a, SlotStep s (f s a)) (l : List α) (s : State) :
    SlotStep s (l.foldl f s) := by
  induction l generalizing s with
  | nil => exact refl s
  | cons a l ih => exact (h s a).trans (ih (f s a))

theorem raiseAll (s : State) (fs : List Flag) : SlotStep s (s.raiseAll fs) := foldl _ raise fs s

theorem completeParcel (s : State) (i : Nat) (d : Option DispatchFields) (c : Completion) :
    SlotStep s (s.completeParcel i d c) := by
  unfold State.completeParcel
  split
  · cases c
    · exact (updateSlot s i _).trans (countLabel _)
    · exact (updateSlot s i _).trans (countRefusal _)
  · exact refl s

theorem completeScreen (s : State) (i : Nat) (o : ScreenOutcome) : SlotStep s (s.completeScreen i o) := by
  unfold State.completeScreen
  split
  · dsimp only
    split
    · exact (updateSlot s i _).trans (countRefusal _)
    · exact updateSlot s i _
  · exact refl s

theorem refuseMembers (s : State) (is : List Nat) (d : Option DispatchFields) (why : Reason) :
    SlotStep s (s.refuseMembers is d why) := foldl _ (fun s i => completeParcel s i d _) is s

theorem linkMembers (s : State) (all is : List Nat) (piece : Nat) : SlotStep s (s.linkMembers all piece is) := by
  induction is generalizing s piece with
  | nil => exact refl s
  | cons i is ih => exact (updateSlot s i _).trans (ih _ _)

theorem writeRatings (s : State) (l : List (Nat × Option RatingResult)) : SlotStep s (s.writeRatings l) := by
  induction l generalizing s with
  | nil => exact refl s
  | cons a l ih => exact (updateSlot s a.1 _).trans (ih _)

theorem refuseRated (s : State) (l : List (Nat × Option RatingResult)) : SlotStep s (s.refuseRated l) := by
  induction l generalizing s with
  | nil => exact refl s
  | cons a l ih => exact (completeParcel s a.1 _ _).trans (ih _)

theorem refuseAlone (s : State) (i : Nat) : SlotStep s (s.refuseAlone i) :=
  (completeParcel s i _ _).trans (raise _ _)

theorem emptySlots (s : State) (is : List Nat) : SlotStep s (s.emptySlots is) :=
  foldl _ (fun s i => updateSlot s i _) is s

theorem withdrawQueued (s : State) (i : Nat) : SlotStep s (s.withdrawQueued i) :=
  ((completeParcel s i _ _).trans (completeScreen _ i _)).trans (raise _ _)

end SlotStep

/-! ## Closing a consignment -/

/-- A consignment refused whole closes the open-consignment record and stops the watchdog (R62, R70, R76). -/
theorem refuseConsignment_closes (s : State) (is : List Nat) (why : Reason) (f : Flag) :
    (s.refuseConsignment is why f).ring.consignment = none ∧ (s.refuseConsignment is why f).ring.watchdog = none := ⟨rfl, rfl⟩

/-- It leaves everything outside the ring as it was. -/
theorem refuseConsignment_outside (s : State) (is : List Nat) (why : Reason) (f : Flag) :
    State.SameOutsideRing s (s.refuseConsignment is why f) ∧ (s.refuseConsignment is why f).response = s.response := by
  have h := (SlotStep.linkMembers s is is 1).trans (SlotStep.refuseMembers _ is none why)
  exact ⟨h.outside, h.response⟩

end Sys2Proof.Machine
end

