-- ==== Sys2Proof/Laws/State.lean ====
section
/-! SUPPORT. One lemma per field per update of State, true by `rfl`, so that no later proof unfolds a record update. -/

namespace Sys2Proof.Machine

/-! ## raise -/

@[simp] theorem State.raise_pending (s : State) (f : Flag) : (s.raise f).pending = s.pending := rfl
@[simp] theorem State.raise_held (s : State) (f : Flag) : (s.raise f).held = s.held := rfl
@[simp] theorem State.raise_response (s : State) (f : Flag) : (s.raise f).response = s.response := rfl
@[simp] theorem State.raise_station (s : State) (f : Flag) : (s.raise f).station = s.station := rfl
@[simp] theorem State.raise_configuration (s : State) (f : Flag) : (s.raise f).configuration = s.configuration := rfl
@[simp] theorem State.raise_timebase (s : State) (f : Flag) : (s.raise f).timebase = s.timebase := rfl
@[simp] theorem State.raise_ordinal (s : State) (f : Flag) : (s.raise f).ordinal = s.ordinal := rfl
@[simp] theorem State.raise_clock (s : State) (f : Flag) : (s.raise f).clock = s.clock := rfl
@[simp] theorem State.raise_ring (s : State) (f : Flag) : (s.raise f).ring = s.ring := rfl
@[simp] theorem State.raise_unit (s : State) (f : Flag) :
    (s.raise f).unit = { s.unit with summary := setFlag s.unit.summary f } := rfl
@[simp] theorem State.raise_store (s : State) (f : Flag) : (s.raise f).store = s.store := rfl
@[simp] theorem State.raise_screen (s : State) (f : Flag) : (s.raise f).screen = s.screen := rfl
@[simp] theorem State.raise_home (s : State) (f : Flag) : (s.raise f).home = s.home := rfl
@[simp] theorem State.raise_table (s : State) (f : Flag) : (s.raise f).table = s.table := rfl
@[simp] theorem State.raise_line (s : State) (f : Flag) : (s.raise f).line = s.line := rfl
@[simp] theorem State.raise_sequence (s : State) (f : Flag) : (s.raise f).sequence = s.sequence := rfl

/-! ## countLabel -/

@[simp] theorem State.countLabel_pending (s : State) : (s.countLabel).pending = s.pending := rfl
@[simp] theorem State.countLabel_held (s : State) : (s.countLabel).held = s.held := rfl
@[simp] theorem State.countLabel_response (s : State) : (s.countLabel).response = s.response := rfl
@[simp] theorem State.countLabel_station (s : State) : (s.countLabel).station = s.station := rfl
@[simp] theorem State.countLabel_configuration (s : State) : (s.countLabel).configuration = s.configuration := rfl
@[simp] theorem State.countLabel_timebase (s : State) : (s.countLabel).timebase = s.timebase := rfl
@[simp] theorem State.countLabel_ordinal (s : State) : (s.countLabel).ordinal = s.ordinal := rfl
@[simp] theorem State.countLabel_clock (s : State) : (s.countLabel).clock = s.clock := rfl
@[simp] theorem State.countLabel_ring (s : State) : (s.countLabel).ring = s.ring := rfl
@[simp] theorem State.countLabel_unit (s : State) :
    (s.countLabel).unit = { s.unit with labelsIssued := countUp s.unit.labelsIssued } := rfl
@[simp] theorem State.countLabel_store (s : State) : (s.countLabel).store = s.store := rfl
@[simp] theorem State.countLabel_screen (s : State) : (s.countLabel).screen = s.screen := rfl
@[simp] theorem State.countLabel_home (s : State) : (s.countLabel).home = s.home := rfl
@[simp] theorem State.countLabel_table (s : State) : (s.countLabel).table = s.table := rfl
@[simp] theorem State.countLabel_line (s : State) : (s.countLabel).line = s.line := rfl
@[simp] theorem State.countLabel_sequence (s : State) : (s.countLabel).sequence = s.sequence := rfl

/-! ## countRefusal -/

@[simp] theorem State.countRefusal_pending (s : State) : (s.countRefusal).pending = s.pending := rfl
@[simp] theorem State.countRefusal_held (s : State) : (s.countRefusal).held = s.held := rfl
@[simp] theorem State.countRefusal_response (s : State) : (s.countRefusal).response = s.response := rfl
@[simp] theorem State.countRefusal_station (s : State) : (s.countRefusal).station = s.station := rfl
@[simp] theorem State.countRefusal_configuration (s : State) : (s.countRefusal).configuration = s.configuration := rfl
@[simp] theorem State.countRefusal_timebase (s : State) : (s.countRefusal).timebase = s.timebase := rfl
@[simp] theorem State.countRefusal_ordinal (s : State) : (s.countRefusal).ordinal = s.ordinal := rfl
@[simp] theorem State.countRefusal_clock (s : State) : (s.countRefusal).clock = s.clock := rfl
@[simp] theorem State.countRefusal_ring (s : State) : (s.countRefusal).ring = s.ring := rfl
@[simp] theorem State.countRefusal_unit (s : State) :
    (s.countRefusal).unit = { s.unit with recordsRefused := countUp s.unit.recordsRefused } := rfl
@[simp] theorem State.countRefusal_store (s : State) : (s.countRefusal).store = s.store := rfl
@[simp] theorem State.countRefusal_screen (s : State) : (s.countRefusal).screen = s.screen := rfl
@[simp] theorem State.countRefusal_home (s : State) : (s.countRefusal).home = s.home := rfl
@[simp] theorem State.countRefusal_table (s : State) : (s.countRefusal).table = s.table := rfl
@[simp] theorem State.countRefusal_line (s : State) : (s.countRefusal).line = s.line := rfl
@[simp] theorem State.countRefusal_sequence (s : State) : (s.countRefusal).sequence = s.sequence := rfl

/-! ## countRejected -/

@[simp] theorem State.countRejected_pending (s : State) : (s.countRejected).pending = s.pending := rfl
@[simp] theorem State.countRejected_held (s : State) : (s.countRejected).held = s.held := rfl
@[simp] theorem State.countRejected_response (s : State) : (s.countRejected).response = s.response := rfl
@[simp] theorem State.countRejected_station (s : State) : (s.countRejected).station = s.station := rfl
@[simp] theorem State.countRejected_configuration (s : State) :
    (s.countRejected).configuration = s.configuration := rfl
@[simp] theorem State.countRejected_timebase (s : State) : (s.countRejected).timebase = s.timebase := rfl
@[simp] theorem State.countRejected_ordinal (s : State) : (s.countRejected).ordinal = s.ordinal := rfl
@[simp] theorem State.countRejected_clock (s : State) : (s.countRejected).clock = s.clock := rfl
@[simp] theorem State.countRejected_ring (s : State) : (s.countRejected).ring = s.ring := rfl
@[simp] theorem State.countRejected_unit (s : State) :
    (s.countRejected).unit = { s.unit with framesRejected := countUp s.unit.framesRejected } := rfl
@[simp] theorem State.countRejected_store (s : State) : (s.countRejected).store = s.store := rfl
@[simp] theorem State.countRejected_screen (s : State) : (s.countRejected).screen = s.screen := rfl
@[simp] theorem State.countRejected_home (s : State) : (s.countRejected).home = s.home := rfl
@[simp] theorem State.countRejected_table (s : State) : (s.countRejected).table = s.table := rfl
@[simp] theorem State.countRejected_line (s : State) : (s.countRejected).line = s.line := rfl
@[simp] theorem State.countRejected_sequence (s : State) : (s.countRejected).sequence = s.sequence := rfl

/-! ## updateSlot -/

@[simp] theorem State.updateSlot_pending (s : State) (i : Nat) (f : Slot → Slot) :
    (s.updateSlot i f).pending = s.pending := rfl
@[simp] theorem State.updateSlot_held (s : State) (i : Nat) (f : Slot → Slot) :
    (s.updateSlot i f).held = s.held := rfl
@[simp] theorem State.updateSlot_response (s : State) (i : Nat) (f : Slot → Slot) :
    (s.updateSlot i f).response = s.response := rfl
@[simp] theorem State.updateSlot_station (s : State) (i : Nat) (f : Slot → Slot) :
    (s.updateSlot i f).station = s.station := rfl
@[simp] theorem State.updateSlot_configuration (s : State) (i : Nat) (f : Slot → Slot) :
    (s.updateSlot i f).configuration = s.configuration := rfl
@[simp] theorem State.updateSlot_timebase (s : State) (i : Nat) (f : Slot → Slot) :
    (s.updateSlot i f).timebase = s.timebase := rfl
@[simp] theorem State.updateSlot_ordinal (s : State) (i : Nat) (f : Slot → Slot) :
    (s.updateSlot i f).ordinal = s.ordinal := rfl
@[simp] theorem State.updateSlot_clock (s : State) (i : Nat) (f : Slot → Slot) :
    (s.updateSlot i f).clock = s.clock := rfl
@[simp] theorem State.updateSlot_ring (s : State) (i : Nat) (f : Slot → Slot) :
    (s.updateSlot i f).ring = { s.ring with slots := s.ring.slots.modify i f } := rfl
@[simp] theorem State.updateSlot_unit (s : State) (i : Nat) (f : Slot → Slot) :
    (s.updateSlot i f).unit = s.unit := rfl
@[simp] theorem State.updateSlot_store (s : State) (i : Nat) (f : Slot → Slot) :
    (s.updateSlot i f).store = s.store := rfl
@[simp] theorem State.updateSlot_screen (s : State) (i : Nat) (f : Slot → Slot) :
    (s.updateSlot i f).screen = s.screen := rfl
@[simp] theorem State.updateSlot_home (s : State) (i : Nat) (f : Slot → Slot) :
    (s.updateSlot i f).home = s.home := rfl
@[simp] theorem State.updateSlot_table (s : State) (i : Nat) (f : Slot → Slot) :
    (s.updateSlot i f).table = s.table := rfl
@[simp] theorem State.updateSlot_line (s : State) (i : Nat) (f : Slot → Slot) :
    (s.updateSlot i f).line = s.line := rfl
@[simp] theorem State.updateSlot_sequence (s : State) (i : Nat) (f : Slot → Slot) :
    (s.updateSlot i f).sequence = s.sequence := rfl

/-! ## updateHome -/

@[simp] theorem State.updateHome_pending (s : State) (lot : Nat) (f : HomeRecord → HomeRecord) :
    (s.updateHome lot f).pending = s.pending := rfl
@[simp] theorem State.updateHome_held (s : State) (lot : Nat) (f : HomeRecord → HomeRecord) :
    (s.updateHome lot f).held = s.held := rfl
@[simp] theorem State.updateHome_response (s : State) (lot : Nat) (f : HomeRecord → HomeRecord) :
    (s.updateHome lot f).response = s.response := rfl
@[simp] theorem State.updateHome_station (s : State) (lot : Nat) (f : HomeRecord → HomeRecord) :
    (s.updateHome lot f).station = s.station := rfl
@[simp] theorem State.updateHome_configuration (s : State) (lot : Nat) (f : HomeRecord → HomeRecord) :
    (s.updateHome lot f).configuration = s.configuration := rfl
@[simp] theorem State.updateHome_timebase (s : State) (lot : Nat) (f : HomeRecord → HomeRecord) :
    (s.updateHome lot f).timebase = s.timebase := rfl
@[simp] theorem State.updateHome_ordinal (s : State) (lot : Nat) (f : HomeRecord → HomeRecord) :
    (s.updateHome lot f).ordinal = s.ordinal := rfl
@[simp] theorem State.updateHome_clock (s : State) (lot : Nat) (f : HomeRecord → HomeRecord) :
    (s.updateHome lot f).clock = s.clock := rfl
@[simp] theorem State.updateHome_ring (s : State) (lot : Nat) (f : HomeRecord → HomeRecord) :
    (s.updateHome lot f).ring = s.ring := rfl
@[simp] theorem State.updateHome_unit (s : State) (lot : Nat) (f : HomeRecord → HomeRecord) :
    (s.updateHome lot f).unit = s.unit := rfl
@[simp] theorem State.updateHome_store (s : State) (lot : Nat) (f : HomeRecord → HomeRecord) :
    (s.updateHome lot f).store = s.store := rfl
@[simp] theorem State.updateHome_screen (s : State) (lot : Nat) (f : HomeRecord → HomeRecord) :
    (s.updateHome lot f).screen = s.screen := rfl
@[simp] theorem State.updateHome_home (s : State) (lot : Nat) (f : HomeRecord → HomeRecord) :
    (s.updateHome lot f).home = s.home.map (fun r => if r.lot = lot then f r else r) := rfl
@[simp] theorem State.updateHome_table (s : State) (lot : Nat) (f : HomeRecord → HomeRecord) :
    (s.updateHome lot f).table = s.table := rfl
@[simp] theorem State.updateHome_line (s : State) (lot : Nat) (f : HomeRecord → HomeRecord) :
    (s.updateHome lot f).line = s.line := rfl
@[simp] theorem State.updateHome_sequence (s : State) (lot : Nat) (f : HomeRecord → HomeRecord) :
    (s.updateHome lot f).sequence = s.sequence := rfl

/-! ## updateEntry -/

@[simp] theorem State.updateEntry_pending (s : State) (i : Nat) (f : LotEntry → LotEntry) :
    (s.updateEntry i f).pending = s.pending := rfl
@[simp] theorem State.updateEntry_held (s : State) (i : Nat) (f : LotEntry → LotEntry) :
    (s.updateEntry i f).held = s.held := rfl
@[simp] theorem State.updateEntry_response (s : State) (i : Nat) (f : LotEntry → LotEntry) :
    (s.updateEntry i f).response = s.response := rfl
@[simp] theorem State.updateEntry_station (s : State) (i : Nat) (f : LotEntry → LotEntry) :
    (s.updateEntry i f).station = s.station := rfl
@[simp] theorem State.updateEntry_configuration (s : State) (i : Nat) (f : LotEntry → LotEntry) :
    (s.updateEntry i f).configuration = s.configuration := rfl
@[simp] theorem State.updateEntry_timebase (s : State) (i : Nat) (f : LotEntry → LotEntry) :
    (s.updateEntry i f).timebase = s.timebase := rfl
@[simp] theorem State.updateEntry_ordinal (s : State) (i : Nat) (f : LotEntry → LotEntry) :
    (s.updateEntry i f).ordinal = s.ordinal := rfl
@[simp] theorem State.updateEntry_clock (s : State) (i : Nat) (f : LotEntry → LotEntry) :
    (s.updateEntry i f).clock = s.clock := rfl
@[simp] theorem State.updateEntry_ring (s : State) (i : Nat) (f : LotEntry → LotEntry) :
    (s.updateEntry i f).ring = s.ring := rfl
@[simp] theorem State.updateEntry_unit (s : State) (i : Nat) (f : LotEntry → LotEntry) :
    (s.updateEntry i f).unit = s.unit := rfl
@[simp] theorem State.updateEntry_store (s : State) (i : Nat) (f : LotEntry → LotEntry) :
    (s.updateEntry i f).store = s.store := rfl
@[simp] theorem State.updateEntry_screen (s : State) (i : Nat) (f : LotEntry → LotEntry) :
    (s.updateEntry i f).screen = s.screen := rfl
@[simp] theorem State.updateEntry_home (s : State) (i : Nat) (f : LotEntry → LotEntry) :
    (s.updateEntry i f).home = s.home := rfl
@[simp] theorem State.updateEntry_table (s : State) (i : Nat) (f : LotEntry → LotEntry) :
    (s.updateEntry i f).table = s.table.modify i f := rfl
@[simp] theorem State.updateEntry_line (s : State) (i : Nat) (f : LotEntry → LotEntry) :
    (s.updateEntry i f).line = s.line := rfl
@[simp] theorem State.updateEntry_sequence (s : State) (i : Nat) (f : LotEntry → LotEntry) :
    (s.updateEntry i f).sequence = s.sequence := rfl

/-! ## nextOrdinal -/

@[simp] theorem State.nextOrdinal_pending (s : State) : (s.nextOrdinal).pending = s.pending := rfl
@[simp] theorem State.nextOrdinal_held (s : State) : (s.nextOrdinal).held = s.held := rfl
@[simp] theorem State.nextOrdinal_response (s : State) : (s.nextOrdinal).response = s.response := rfl
@[simp] theorem State.nextOrdinal_station (s : State) : (s.nextOrdinal).station = s.station := rfl
@[simp] theorem State.nextOrdinal_configuration (s : State) : (s.nextOrdinal).configuration = s.configuration := rfl
@[simp] theorem State.nextOrdinal_timebase (s : State) : (s.nextOrdinal).timebase = s.timebase := rfl
@[simp] theorem State.nextOrdinal_ordinal (s : State) : (s.nextOrdinal).ordinal = s.ordinal + 1 := rfl
@[simp] theorem State.nextOrdinal_clock (s : State) : (s.nextOrdinal).clock = s.clock := rfl
@[simp] theorem State.nextOrdinal_ring (s : State) : (s.nextOrdinal).ring = s.ring := rfl
@[simp] theorem State.nextOrdinal_unit (s : State) : (s.nextOrdinal).unit = s.unit := rfl
@[simp] theorem State.nextOrdinal_store (s : State) : (s.nextOrdinal).store = s.store := rfl
@[simp] theorem State.nextOrdinal_screen (s : State) : (s.nextOrdinal).screen = s.screen := rfl
@[simp] theorem State.nextOrdinal_home (s : State) : (s.nextOrdinal).home = s.home := rfl
@[simp] theorem State.nextOrdinal_table (s : State) : (s.nextOrdinal).table = s.table := rfl
@[simp] theorem State.nextOrdinal_line (s : State) : (s.nextOrdinal).line = s.line := rfl
@[simp] theorem State.nextOrdinal_sequence (s : State) : (s.nextOrdinal).sequence = s.sequence := rfl

/-! ## advanceSequence -/

@[simp] theorem State.advanceSequence_pending (s : State) (n : Nat) : (s.advanceSequence n).pending = s.pending := rfl
@[simp] theorem State.advanceSequence_held (s : State) (n : Nat) : (s.advanceSequence n).held = s.held := rfl
@[simp] theorem State.advanceSequence_response (s : State) (n : Nat) :
    (s.advanceSequence n).response = s.response := rfl
@[simp] theorem State.advanceSequence_station (s : State) (n : Nat) : (s.advanceSequence n).station = s.station := rfl
@[simp] theorem State.advanceSequence_configuration (s : State) (n : Nat) :
    (s.advanceSequence n).configuration = s.configuration := rfl
@[simp] theorem State.advanceSequence_timebase (s : State) (n : Nat) :
    (s.advanceSequence n).timebase = s.timebase := rfl
@[simp] theorem State.advanceSequence_ordinal (s : State) (n : Nat) : (s.advanceSequence n).ordinal = s.ordinal := rfl
@[simp] theorem State.advanceSequence_clock (s : State) (n : Nat) : (s.advanceSequence n).clock = s.clock := rfl
@[simp] theorem State.advanceSequence_ring (s : State) (n : Nat) : (s.advanceSequence n).ring = s.ring := rfl
@[simp] theorem State.advanceSequence_unit (s : State) (n : Nat) : (s.advanceSequence n).unit = s.unit := rfl
@[simp] theorem State.advanceSequence_store (s : State) (n : Nat) : (s.advanceSequence n).store = s.store := rfl
@[simp] theorem State.advanceSequence_screen (s : State) (n : Nat) : (s.advanceSequence n).screen = s.screen := rfl
@[simp] theorem State.advanceSequence_home (s : State) (n : Nat) : (s.advanceSequence n).home = s.home := rfl
@[simp] theorem State.advanceSequence_table (s : State) (n : Nat) : (s.advanceSequence n).table = s.table := rfl
@[simp] theorem State.advanceSequence_line (s : State) (n : Nat) : (s.advanceSequence n).line = s.line := rfl
@[simp] theorem State.advanceSequence_sequence (s : State) (n : Nat) :
    (s.advanceSequence n).sequence = s.sequence.map (· + n) := rfl

/-! ## closeConsignment -/

@[simp] theorem State.closeConsignment_pending (s : State) : (s.closeConsignment).pending = s.pending := rfl
@[simp] theorem State.closeConsignment_held (s : State) : (s.closeConsignment).held = s.held := rfl
@[simp] theorem State.closeConsignment_response (s : State) : (s.closeConsignment).response = s.response := rfl
@[simp] theorem State.closeConsignment_station (s : State) : (s.closeConsignment).station = s.station := rfl
@[simp] theorem State.closeConsignment_configuration (s : State) :
    (s.closeConsignment).configuration = s.configuration := rfl
@[simp] theorem State.closeConsignment_timebase (s : State) : (s.closeConsignment).timebase = s.timebase := rfl
@[simp] theorem State.closeConsignment_ordinal (s : State) : (s.closeConsignment).ordinal = s.ordinal := rfl
@[simp] theorem State.closeConsignment_clock (s : State) : (s.closeConsignment).clock = s.clock := rfl
@[simp] theorem State.closeConsignment_ring (s : State) :
    (s.closeConsignment).ring = { s.ring with consignment := none, watchdog := none } := rfl
@[simp] theorem State.closeConsignment_unit (s : State) : (s.closeConsignment).unit = s.unit := rfl
@[simp] theorem State.closeConsignment_store (s : State) : (s.closeConsignment).store = s.store := rfl
@[simp] theorem State.closeConsignment_screen (s : State) : (s.closeConsignment).screen = s.screen := rfl
@[simp] theorem State.closeConsignment_home (s : State) : (s.closeConsignment).home = s.home := rfl
@[simp] theorem State.closeConsignment_table (s : State) : (s.closeConsignment).table = s.table := rfl
@[simp] theorem State.closeConsignment_line (s : State) : (s.closeConsignment).line = s.line := rfl
@[simp] theorem State.closeConsignment_sequence (s : State) : (s.closeConsignment).sequence = s.sequence := rfl

/-! ## advanceRate -/

@[simp] theorem State.advanceRate_pending (s : State) : (s.advanceRate).pending = s.pending := rfl
@[simp] theorem State.advanceRate_held (s : State) : (s.advanceRate).held = s.held := rfl
@[simp] theorem State.advanceRate_response (s : State) : (s.advanceRate).response = s.response := rfl
@[simp] theorem State.advanceRate_station (s : State) : (s.advanceRate).station = s.station := rfl
@[simp] theorem State.advanceRate_configuration (s : State) : (s.advanceRate).configuration = s.configuration := rfl
@[simp] theorem State.advanceRate_timebase (s : State) : (s.advanceRate).timebase = s.timebase := rfl
@[simp] theorem State.advanceRate_ordinal (s : State) : (s.advanceRate).ordinal = s.ordinal := rfl
@[simp] theorem State.advanceRate_clock (s : State) : (s.advanceRate).clock = s.clock := rfl
@[simp] theorem State.advanceRate_ring (s : State) :
    (s.advanceRate).ring = { s.ring with rate := nextPosition s.ring.rate, pendingCount := s.ring.pendingCount - 1 } := rfl
@[simp] theorem State.advanceRate_unit (s : State) : (s.advanceRate).unit = s.unit := rfl
@[simp] theorem State.advanceRate_store (s : State) : (s.advanceRate).store = s.store := rfl
@[simp] theorem State.advanceRate_screen (s : State) : (s.advanceRate).screen = s.screen := rfl
@[simp] theorem State.advanceRate_home (s : State) : (s.advanceRate).home = s.home := rfl
@[simp] theorem State.advanceRate_table (s : State) : (s.advanceRate).table = s.table := rfl
@[simp] theorem State.advanceRate_line (s : State) : (s.advanceRate).line = s.line := rfl
@[simp] theorem State.advanceRate_sequence (s : State) : (s.advanceRate).sequence = s.sequence := rfl

/-! ## answer -/

@[simp] theorem State.answer_pending (s : State) (r : Response) : (s.answer r).pending = s.pending := rfl
@[simp] theorem State.answer_held (s : State) (r : Response) : (s.answer r).held = s.held := rfl
@[simp] theorem State.answer_response (s : State) (r : Response) : (s.answer r).response = some r := rfl
@[simp] theorem State.answer_station (s : State) (r : Response) : (s.answer r).station = s.station := rfl
@[simp] theorem State.answer_configuration (s : State) (r : Response) :
    (s.answer r).configuration = s.configuration := rfl
@[simp] theorem State.answer_timebase (s : State) (r : Response) : (s.answer r).timebase = s.timebase := rfl
@[simp] theorem State.answer_ordinal (s : State) (r : Response) : (s.answer r).ordinal = s.ordinal := rfl
@[simp] theorem State.answer_clock (s : State) (r : Response) : (s.answer r).clock = s.clock := rfl
@[simp] theorem State.answer_ring (s : State) (r : Response) : (s.answer r).ring = s.ring := rfl
@[simp] theorem State.answer_unit (s : State) (r : Response) : (s.answer r).unit = s.unit := rfl
@[simp] theorem State.answer_store (s : State) (r : Response) : (s.answer r).store = s.store := rfl
@[simp] theorem State.answer_screen (s : State) (r : Response) : (s.answer r).screen = s.screen := rfl
@[simp] theorem State.answer_home (s : State) (r : Response) : (s.answer r).home = s.home := rfl
@[simp] theorem State.answer_table (s : State) (r : Response) : (s.answer r).table = s.table := rfl
@[simp] theorem State.answer_line (s : State) (r : Response) : (s.answer r).line = s.line := rfl
@[simp] theorem State.answer_sequence (s : State) (r : Response) : (s.answer r).sequence = s.sequence := rfl

/-! ## stopSending -/

@[simp] theorem State.stopSending_pending (s : State) : (s.stopSending).pending = s.pending := rfl
@[simp] theorem State.stopSending_held (s : State) : (s.stopSending).held = s.held := rfl
@[simp] theorem State.stopSending_response (s : State) : (s.stopSending).response = s.response := rfl
@[simp] theorem State.stopSending_station (s : State) : (s.stopSending).station = s.station := rfl
@[simp] theorem State.stopSending_configuration (s : State) : (s.stopSending).configuration = s.configuration := rfl
@[simp] theorem State.stopSending_timebase (s : State) : (s.stopSending).timebase = s.timebase := rfl
@[simp] theorem State.stopSending_ordinal (s : State) : (s.stopSending).ordinal = s.ordinal := rfl
@[simp] theorem State.stopSending_clock (s : State) : (s.stopSending).clock = s.clock := rfl
@[simp] theorem State.stopSending_ring (s : State) : (s.stopSending).ring = s.ring := rfl
@[simp] theorem State.stopSending_unit (s : State) : (s.stopSending).unit = s.unit := rfl
@[simp] theorem State.stopSending_store (s : State) : (s.stopSending).store = s.store := rfl
@[simp] theorem State.stopSending_screen (s : State) : (s.stopSending).screen = s.screen := rfl
@[simp] theorem State.stopSending_home (s : State) : (s.stopSending).home = s.home := rfl
@[simp] theorem State.stopSending_table (s : State) : (s.stopSending).table = s.table := rfl
@[simp] theorem State.stopSending_line (s : State) :
    (s.stopSending).line = { s.line with transmission := none } := rfl
@[simp] theorem State.stopSending_sequence (s : State) : (s.stopSending).sequence = s.sequence := rfl

/-! ## markPresent -/

@[simp] theorem State.markPresent_pending (s : State) (n : Nat) : (s.markPresent n).pending = s.pending := rfl
@[simp] theorem State.markPresent_held (s : State) (n : Nat) : (s.markPresent n).held = s.held := rfl
@[simp] theorem State.markPresent_response (s : State) (n : Nat) : (s.markPresent n).response = s.response := rfl
@[simp] theorem State.markPresent_station (s : State) (n : Nat) : (s.markPresent n).station = s.station := rfl
@[simp] theorem State.markPresent_configuration (s : State) (n : Nat) :
    (s.markPresent n).configuration = s.configuration := rfl
@[simp] theorem State.markPresent_timebase (s : State) (n : Nat) : (s.markPresent n).timebase = s.timebase := rfl
@[simp] theorem State.markPresent_ordinal (s : State) (n : Nat) : (s.markPresent n).ordinal = s.ordinal := rfl
@[simp] theorem State.markPresent_clock (s : State) (n : Nat) : (s.markPresent n).clock = s.clock := rfl
@[simp] theorem State.markPresent_ring (s : State) (n : Nat) : (s.markPresent n).ring = s.ring := rfl
@[simp] theorem State.markPresent_unit (s : State) (n : Nat) : (s.markPresent n).unit = s.unit := rfl
@[simp] theorem State.markPresent_store (s : State) (n : Nat) : (s.markPresent n).store = s.store := rfl
@[simp] theorem State.markPresent_screen (s : State) (n : Nat) : (s.markPresent n).screen = s.screen := rfl
@[simp] theorem State.markPresent_home (s : State) (n : Nat) : (s.markPresent n).home = s.home := rfl
@[simp] theorem State.markPresent_table (s : State) (n : Nat) : (s.markPresent n).table = s.table := rfl
@[simp] theorem State.markPresent_line (s : State) (n : Nat) :
    (s.markPresent n).line = { s.line with presence := s.line.presence.modify n (fun _ => ⟨true, some Config.absenceTime⟩) } := rfl
@[simp] theorem State.markPresent_sequence (s : State) (n : Nat) : (s.markPresent n).sequence = s.sequence := rfl

/-! ## seek -/

@[simp] theorem State.seek_pending (s : State) (i : Nat) : (s.seek i).pending = s.pending := rfl
@[simp] theorem State.seek_held (s : State) (i : Nat) : (s.seek i).held = s.held := rfl
@[simp] theorem State.seek_response (s : State) (i : Nat) : (s.seek i).response = s.response := rfl
@[simp] theorem State.seek_station (s : State) (i : Nat) : (s.seek i).station = s.station := rfl
@[simp] theorem State.seek_configuration (s : State) (i : Nat) : (s.seek i).configuration = s.configuration := rfl
@[simp] theorem State.seek_timebase (s : State) (i : Nat) : (s.seek i).timebase = s.timebase := rfl
@[simp] theorem State.seek_ordinal (s : State) (i : Nat) : (s.seek i).ordinal = s.ordinal := rfl
@[simp] theorem State.seek_clock (s : State) (i : Nat) : (s.seek i).clock = s.clock := rfl
@[simp] theorem State.seek_ring (s : State) (i : Nat) :
    (s.seek i).ring = { s.ring with slots := s.ring.slots.modify i (fun x => { x with tag := .seeking }) } := rfl
@[simp] theorem State.seek_unit (s : State) (i : Nat) : (s.seek i).unit = s.unit := rfl
@[simp] theorem State.seek_store (s : State) (i : Nat) : (s.seek i).store = s.store := rfl
@[simp] theorem State.seek_screen (s : State) (i : Nat) : (s.seek i).screen = s.screen := rfl
@[simp] theorem State.seek_home (s : State) (i : Nat) : (s.seek i).home = s.home := rfl
@[simp] theorem State.seek_table (s : State) (i : Nat) : (s.seek i).table = s.table := rfl
@[simp] theorem State.seek_line (s : State) (i : Nat) : (s.seek i).line = s.line := rfl
@[simp] theorem State.seek_sequence (s : State) (i : Nat) : (s.seek i).sequence = s.sequence := rfl

end Sys2Proof.Machine
end

