-- ==== Sys2Proof/Tests/Slice0.lean ====
section
/-! SUPPORT. Tests: the well-formedness smoke, the manual's worked figures, byte layouts, one step of each command, and for
every statement of Certificates/Slice0/Obligations.lean with hypotheses a state and operands that meet them. Each expected
value is the manual's (its place named) or worked out by hand from the rule named. -/

namespace Sys2Proof.Machine.Tests

set_option Elab.async false

open Sys2Proof

/-! ## Well-formedness: an ill-formed term refused by each check -/

def digits (ns : List Nat) : Bytes := ns.map (fun n => BitVec.ofNat 8 (0x30 + n))

/-- Destination 412 007. -/
def to412 : Bytes := digits [4, 1, 2, 0, 0, 7]

/-- The parcel of the worked case (1.9). -/
def worked : ParcelRecord := ⟨201, 1, 0x01, 3450, 412, 305, 198, to412, 40000, 0⟩

def entry0 : ScreenEntry := ⟨3, digits [4, 1, 2, 0, 0, 0]⟩
def spare : ScreenEntry := ⟨0, List.replicate 6 0x20⟩

/-- The screen record of 3.6: EXACT, prefix 412. -/
def screen412 : ScreenRecord := ⟨102, ⟨0, 0, 1, entry0 :: List.replicate 15 spare, 0⟩⟩

/-- The configuration record of 10.8, step 4. -/
def record4 : ConfigRecord := ⟨12, 4, 45, 420, 318, [0x50, 0x58], 0, 1, 0, 0, 0, 0⟩

def cargo : HandoverBody := ⟨5, 138, ⟨60000, 400, 20⟩, 0, []⟩

theorem test_wf_accepts :
    (Instr.configure record4).wf ∧ (Instr.submit (.parcel worked)).wf ∧ (Instr.submit (.screen screen412)).wf ∧
      (Instr.clearSummary ⟨2, [4, 2]⟩).wf ∧ (Instr.handoverAccepted 3 cargo).wf ∧ (Instr.loadFaults [(0, 0)]).wf := by
  decide

theorem test_wf_refuses_weight : ¬ (Instr.submit (.parcel { worked with weight := 4294967296 })).wf := by decide
theorem test_wf_refuses_destination : ¬ (Instr.submit (.parcel { worked with destination := [0x30] })).wf := by decide
theorem test_wf_refuses_entries :
    ¬ (Instr.submit (.screen { screen412 with body := { screen412.body with entries := [entry0] } })).wf := by decide
theorem test_wf_refuses_known_kind : ¬ (Instr.submit (.unknownKind 1)).wf := by decide
theorem test_wf_refuses_prefix : ¬ (Instr.configure { record4 with networkPrefix := [0x50] }).wf := by decide
theorem test_wf_refuses_slot : ¬ (Instr.collect 256).wf := by decide
theorem test_wf_refuses_flag_count : ¬ (Instr.clearSummary ⟨3, [4, 2]⟩).wf := by decide
theorem test_wf_refuses_lot : ¬ (Instr.lotView 65536).wf := by decide
theorem test_wf_refuses_known_code : ¬ (Instr.unknownCommand (.code 3)).wf := by decide
theorem test_wf_refuses_fitting_length : ¬ (Instr.unknownCommand (.length 3 1)).wf := by decide
theorem test_wf_refuses_reset_argument : ¬ (Instr.unknownCommand (.resetArgument 2)).wf := by decide
theorem test_wf_refuses_image_order : ¬ (Instr.loadCompletes [(5, 0), (4, 0)]).wf := by decide
theorem test_wf_refuses_image_blank : ¬ (Instr.loadCompletes [(5, 0xFF)]).wf := by decide
theorem test_wf_refuses_entry_number : ¬ (Instr.publishTimerExpires 48).wf := by decide
theorem test_wf_refuses_station : ¬ (Instr.absenceTimerExpires 32).wf := by decide
theorem test_wf_refuses_sender : ¬ (Instr.fetchAccepted 32 138).wf := by decide
theorem test_wf_refuses_queue : ¬ (Instr.handoverAccepted 3 { cargo with queue := List.replicate 32 0 }).wf := by decide +kernel
theorem test_wf_refuses_figures : ¬ (Instr.noticeAccepted 3 138 ⟨0, 0, 65536⟩).wf := by decide
theorem test_wf_refuses_edition : ¬ (Instr.helloAccepted 3 65536 0).wf := by decide
theorem test_wf_refuses_content : ¬ (Instr.unknownKindFrameAccepted 3 (List.replicate 256 0)).wf := by decide +kernel

/-! ## A hall as in 1.9, 1.10, 6.11 and 11 -/

/-- STANDARD of the worked case (1.9). -/
def standard : RateSection where
  bands := [⟨5000, List.replicate 10 1200⟩, ⟨10000, List.replicate 10 1890⟩, ⟨30000, List.replicate 10 4800⟩]
  excessStep := 500
  increments := List.replicate 10 100
  divisor := 5000
  fuel := 1250
  tax := 2000
  insuranceAllowed := true
  freeThreshold := 10000
  insuranceRate := 150
  minimumPremium := 200
  surcharges := ⟨2500, 300, 150, 400, 250, 600⟩

/-- PRIORITY of the case at the money limit (1.10). -/
def priority : RateSection :=
  { standard with bands := [⟨30000, List.replicate 10 4800⟩], increments := List.replicate 10 65535, divisor := 1000 }

/-- The three departures of route 17 (11), prefixes below 900 in zone 4 on that route, 900 and above in none. -/
def hall (m : RoundingMode) : Tariff where
  mode := m
  edition := 318
  firstDay := 1
  lastDay := 90
  zones := List.replicate 900 ⟨some 4, 17, false⟩ ++ List.replicate 100 ⟨none, 0, false⟩
  economy := standard
  standard := standard
  priority := priority
  discounts := [300, 500, 600, 700, 800, 900, 1000]
  plan := [
    ⟨17, 0, 540, ⟨false, true, true⟩, ⟨1000000, 5000, 200⟩, 4⟩,
    ⟨17, 1, 780, ⟨true, true, true⟩, ⟨1500000, 6000, 300⟩, 5⟩,
    ⟨17, 2, 1080, ⟨false, true, true⟩, ⟨800000, 4000, 150⟩, 3⟩]
  defaultScreen := .places false []

def setup (n : Nat) : Configuration := ⟨12, n, 45, 420, 318, [0x50, 0x58], 0, true, 400, 4, 180, true, true, true⟩

def line : LineController := { LineController.cleared with state := .active }

/-- A READY station of the hall with its home records and its first entry. -/
def station (n minute : Nat) (home : List HomeRecord) (e : LotEntry) : State :=
  { State.reset with
    station := .ready, configuration := some (setup n), ordinal := 20, clock := some ⟨minute, 0⟩
    store := .loaded (hall .halfUp), screen := some (.places false []), home := home
    table := e :: List.replicate 47 LotEntry.cleared, line := line, sequence := some 412 }

def home (lot : Nat) (st : HomeState) (f : Figures) : HomeRecord :=
  ⟨lot, st, f, none, false, [], false, 0, none, none, []⟩

def entryFor (lot : Nat) (st : EntryState) (f : Option Figures) : LotEntry :=
  { LotEntry.cleared with lot := some lot, state := st, figures := f, lastUse := 3, lastDebit := 2 }

/-- Lot 137 at its home as 11.1 begins. -/
def home137 : HomeRecord := home 137 .atHome ⟨12000, 90, 3⟩

/-- Station 5 at clock 700 (11.1), no entry in use. -/
def at5 : State := station 5 700 [home137] LotEntry.cleared

/-- A request on a waiting list. -/
def request (slot lot : Nat) (f : Figures) (rest : List Candidate) : Request :=
  ⟨[slot], 1, 1, 17, f, ⟨lot, 1080⟩ :: rest, 0, some lot⟩

/-- What a command leaves; no command faults or is refused. -/
def after (c : Instr) (s : State) : State :=
  match exec c s with
  | .next t => t
  | .fault _ => s
  | .refused _ => s

def withSlots (s : State) (xs : List Slot) (put rate pend : Nat) : State :=
  { s with ring := ⟨xs ++ List.replicate (8 - xs.length) Slot.vacant, put, rate, pend, none, none, 0⟩ }

def queued (p : ParcelRecord) : Slot := { Slot.vacant with tag := .queued, record := some (.parcel p) }

/-! ## Worked figures -/

/-- The rounding table of 1.3. -/
theorem test_rounding_table :
    [RoundingMode.halfUp, .halfEven, .up, .down].map (fun m => [327100, 327149, 327150, 327250, 327251].map (roundBy m · 100)) =
      [[3271, 3271, 3272, 3273, 3273], [3271, 3271, 3272, 3272, 3273], [3271, 3272, 3272, 3273, 3273],
        [3271, 3271, 3271, 3272, 3272]] := by decide

/-- The worked case of 1.9: every field of the rating result, and its charge under each mode. -/
theorem test_worked_case :
    rateRecord (hall .halfUp) (.places false []) ⟨true, true⟩ none worked =
      (⟨none, some 4, 17, false, 26040, 27, 5208, 189000, 23625, 15000, 45000, 0, 54525, 327150, 3272, .up, true, false,
        false⟩, [.inexact]) := by decide +kernel

theorem test_worked_case_modes :
    [RoundingMode.halfEven, .up, .down].map (fun m =>
      let r := (rateRecord (hall m) (.places false []) ⟨true, true⟩ none worked).1
      (r.charge, r.direction, r.inexact)) =
      [(3272, .up, true), (3272, .up, true), (3271, .down, true)] := by decide +kernel

/-- The consignment variant of 1.9 under the four modes: discount, tax, total, charge, direction. -/
theorem test_consignment_variant :
    [RoundingMode.halfUp, .halfEven, .up, .down].map (fun m =>
      let r := (rateRecord (hall m) (.places false []) ⟨true, true⟩ (some 3) worked).1
      (r.discount, r.tax, r.total, r.charge, r.direction)) =
      [(13631, 51799, 310793, 3108, .up), (13631, 51799, 310793, 3108, .up), (13632, 51799, 310792, 3108, .up),
        (13631, 51798, 310792, 3107, .down)] := by decide +kernel

/-- The parcel at the money limit (1.10). -/
def heavy : ParcelRecord := ⟨7, 2, 0, 20000, 1330, 660, 660, to412, 0, 0⟩

theorem test_money_limit_clamped :
    rateRecord (hall .halfUp) (.places false []) ⟨true, true⟩ none heavy =
      (⟨none, some 4, 17, false, 579348, 580, 579348, 999999900, 124999988, 250000, 0, 0, 199999980, 999999900, 9999999,
        .exactly, true, true, false⟩, [.overflow, .inexact]) := by decide +kernel

theorem test_money_limit_refused :
    rateRecord (hall .halfUp) (.places false []) ⟨true, false⟩ none heavy =
      (⟨some .overflow, some 4, 17, false, 579348, 580, 579348, 0, 0, 0, 0, 0, 0, 0, 0, .exactly, false, false, false⟩,
        [.overflow]) := by decide +kernel

/-- The steps of R11 and the boundary of R9. -/
theorem test_excess_steps :
    [30000, 30001, 30500, 30501].map (baseCharge standard 4) = [4800, 4900, 4900, 5000] := by decide

/-- The girth of R3 at 4,000 and above it, a zone NONE and a restricted destination (R4, R5). -/
theorem test_rating_refusals :
    (rateRecord (hall .up) (.places false []) ⟨true, true⟩ none { worked with height := 1489, width := 305 }).1.refusal = none ∧
    (rateRecord (hall .up) (.places false []) ⟨true, true⟩ none { worked with height := 2000, width := 1000, length := 1 }).1.refusal =
      some .invalid ∧
    (rateRecord (hall .up) (.places false []) ⟨true, true⟩ none { worked with destination := digits [9, 0, 3, 0, 0, 0] }).1.refusal =
      some .noService ∧
    (rateRecord (hall .up) (.places false [⟨3, digits [4, 1, 2]⟩]) ⟨false, true⟩ none worked).1.refusal = some .restricted := by
  decide +kernel

/-- The inverse list and the hash indices of 3.6. -/
theorem test_screens_classify :
    [[4, 1, 2, 0, 0, 7], [5, 0, 0, 1, 2, 3], [5, 0, 0, 1, 2, 4], [0, 4, 1, 2, 0, 0]].map
      (fun d => (Screen.places true [⟨3, digits [4, 1, 2]⟩, ⟨6, digits [5, 0, 0, 1, 2, 3]⟩]).restricts (digits d)) =
      [false, false, true, true] ∧
    [[4, 1, 2, 0, 0, 7], [4, 1, 2, 5, 1, 9], [0, 0, 0, 0, 0, 3], [1, 0, 0, 0, 0, 0], [9, 9, 9, 9, 9, 9]].map
      (fun d => hashIndex (digits d)) = [3, 3, 3, 4, 486] := by decide +kernel

/-- The tracking numbers of 11.1 and 9.1: PX04505004121, PX04507003186. -/
theorem test_tracking_numbers :
    trackingNumber (setup 5) 412 = [0x50, 0x58] ++ digits [0, 4, 5, 0, 5, 0, 0, 4, 1, 2, 1] ∧
    trackingNumber (setup 7) 318 = [0x50, 0x58] ++ digits [0, 4, 5, 0, 7, 0, 0, 3, 1, 8, 6] ∧
    trackingNumber (setup 7) 327 = [0x50, 0x58] ++ digits [0, 4, 5, 0, 7, 0, 0, 3, 2, 7, 2] := by decide +kernel

/-- The home of lot 41 among 12 stations (R40). -/
theorem test_home_substitution :
    (substituteHome 12 ⟨5, 1, 0, ⟨true, true, true⟩, ⟨1, 1, 1⟩, 30⟩).home = 5 ∧
    (substituteHome 32 ⟨5, 1, 0, ⟨true, true, true⟩, ⟨1, 1, 1⟩, 30⟩).home = 30 := by decide

/-- The CRC of polynomial 1021H and initial value FFFFH on the nine characters 1 to 9 is 29B1H. -/
theorem test_crc : crc16 (digits [1, 2, 3, 4, 5, 6, 7, 8, 9]) = 0x29B1#16 := by decide +kernel

/-! ## Bytes (R182, R186) -/

/-- The parcel frame written out: code 02H, length 001AH, kind 00H and the 25 bytes of the record. -/
theorem test_submit_bytes :
    decodeCommand ([0x02, 0x00, 0x1A, 0x00, 0x00, 0xC9, 0x01, 0x01, 0x00, 0x00, 0x0D, 0x7A, 0x01, 0x9C, 0x01, 0x31, 0x00,
      0xC6] ++ to412 ++ [0x00, 0x00, 0x9C, 0x40, 0x00]) = .submit (.parcel worked) := by decide +kernel

/-- The configuration frame of 10.8 written out: code 01H, length 0015H. -/
theorem test_configure_bytes :
    decodeCommand [0x01, 0x00, 0x15, 12, 4, 0x00, 45, 0x01, 0xA4, 0x00, 0x00, 0x01, 0x3E, 0x50, 0x58, 0x00, 0x00, 1, 0x00,
      0x00, 0, 0x00, 0x00, 0] = .configure record4 := by decide +kernel

/-- Short frames: cut short, unknown code, wrong length, RESET of argument 3 (R172, R173, R183). -/
theorem test_odd_frames :
    decodeCommand [0x06, 0x00] = .commandDiscarded ∧ decodeCommand [0x03, 0x00, 0x01] = .commandDiscarded ∧
    decodeCommand [0x0B, 0x00, 0x00] = .unknownCommand (.code 11) ∧
    decodeCommand [0x06, 0x00, 0x01, 0xAA] = .unknownCommand (.length 6 1) ∧
    decodeCommand [0x0A, 0x00, 0x01, 0x03] = .unknownCommand (.resetArgument 3) ∧
    decodeCommand [0x06, 0x00, 0x00, 0x55] = .status ∧ decodeCommand [0x07, 0x00, 0x02, 0x01, 0x04] = .clearSummary ⟨1, [4]⟩ := by
  decide +kernel

/-- Header bytes of 8.11: HANDOVER from 9 is 000 01001, FETCH from 5 is 011 00101; the bytes of a HANDOVER (R186). -/
theorem test_frame_bytes :
    headerByte ⟨9, .handover cargo⟩ = 0b00001001 ∧ headerByte ⟨5, .fetch 201⟩ = 0b01100101 ∧
    coveredBytes ⟨3, .handover { cargo with queue := [8] }⟩ =
      [0x03, 16, 5, 0x00, 0x8A, 0x00, 0x00, 0xEA, 0x60, 0x00, 0x00, 0x01, 0x90, 0x00, 20, 0, 1, 8] := by decide +kernel

/-- A start bit and nine bits a byte, the separator dominant (R148): 6 bytes of a FETCH. -/
theorem test_frame_bits :
    (frameBits ⟨5, .fetch 201⟩).length = 55 ∧
    (frameBits ⟨5, .fetch 201⟩).take 10 = [false, false, true, true, false, false, true, false, true, false] := by decide +kernel

/-- A receiver's judgement: a good frame, one bit wrong, a recessive separator, a count that does not fit (R152). -/
theorem test_faulty :
    faulty ⟨frameBytes ⟨5, .fetch 201⟩, true⟩ = false ∧ faulty ⟨frameBytes ⟨5, .fetch 201⟩, false⟩ = true ∧
    faulty ⟨(frameBytes ⟨5, .fetch 201⟩).set 3 0xC8, true⟩ = true ∧ faulty ⟨frameBytes ⟨5, .unknown [1]⟩, true⟩ = false := by
  decide +kernel

/-- The table spells no command in bits. -/
theorem test_table_has_no_words : decodeTableWord 8 6 = none ∧ (at5.withFetchWord 8 6).pending = [] := by
  refine ⟨rfl, rfl⟩

/-! ## States that the commands below run on -/

/-- Slot 0 DONE and labelled, slots 1 and 2 an open consignment (4.10). -/
def doneSlot : Slot :=
  let p := worked
  { Slot.vacant with
    tag := .complete, record := some (.parcel p)
    label := some (formLabel p none none none (.labelled (trackingNumber (setup 5) 411) noNumberText)) }

def first : ParcelRecord := { worked with pieceMark := 1 }
def middle : ParcelRecord := { worked with pieceMark := 2 }
def last : ParcelRecord := { worked with pieceMark := 3 }

def grouped (p : ParcelRecord) (members : List Nat) (piece : Nat) : Slot :=
  { Slot.vacant with tag := .grouped, record := some (.parcel p), link := some ⟨members, piece⟩ }

/-- Members 1 and 2 open, slot 0 DONE, `p` QUEUED in slot 3 at the rate position. -/
def opened (p : ParcelRecord) : State :=
  { at5 with ring := ⟨[doneSlot, grouped first [1] 1, grouped middle [1, 2] 2, queued p] ++
      List.replicate 4 Slot.vacant, 4, 3, 1, some ⟨[1, 2], 1, to412⟩, some 180000, 4⟩ }

/-- One record QUEUED in slot 0. -/
def alone (p : ParcelRecord) : State := withSlots at5 [queued p] 1 0 1

/-- The rating of the worked case. -/
def workedRating : RatingResult :=
  ⟨none, some 4, 17, false, 26040, 27, 5208, 189000, 23625, 15000, 45000, 0, 54525, 327150, 3272, .up, true, false, false⟩

def seekingSlot : Slot := { queued worked with tag := .seeking, rating := some workedRating }

/-- Station 5 ASKING for lot 138, a parcel of slot 0 waiting on it (11.2, event 1). -/
def asking138 : LotEntry :=
  { entryFor 138 .asking none with waiting := [request 0 138 ⟨3450, 27, 1⟩ []] }

def waiting5 : State :=
  withSlots { at5 with table := asking138 :: List.replicate 47 LotEntry.cleared } [seekingSlot] 1 1 0

def sending (s : State) (o : FrameOwner) (f : PendingFrame) (b : FrameBody) : State :=
  { s with line := { s.line with transmission := some ⟨o, f.kind, f.queuedAt, some ⟨s.own, b⟩⟩ } }

def frame (k : FrameKind) (n : Nat) : PendingFrame := ⟨k, n, 7⟩

/-! ## One step of each command -/

/-- 10.8, steps 3 and 4. -/
theorem test_configure_bad_field :
    after (.configure { record4 with stationNumber := 12 }) State.reset =
      { State.reset with response := some ⟨.badArg, .failedCheck 4 2⟩ } := by decide +kernel

theorem test_configure_accepted :
    let t := after (.configure record4) State.reset
    (t.response, t.station, t.line.state, t.clock, t.sequence, t.attn) =
      (some ⟨.ok, .nothing⟩, .loading, .off, some ⟨420, 0⟩, some 318, false) := by decide +kernel

/-- 4.10, first row, and the fourth SUBMIT after it. -/
theorem test_submit_places :
    let t := after (.submit (.parcel worked)) at5
    (t.response, (t.slot 0).tag, t.ring.put, t.ring.rate, t.ring.pendingCount) = (some ⟨.ok, .slotIndex 0⟩, .queued, 1, 0, 1) := by
  decide +kernel

theorem test_submit_full :
    (after (.submit (.parcel worked)) { (opened worked) with ring.put := 0 }).response = some ⟨.full, .nothing⟩ := by
  decide +kernel

theorem test_collect_empties :
    let t := after (.collect 0) (opened worked)
    ((t.slot 0).tag, t.attn, (t.response.map (fun r => (bodyResponse r.body).length))) = (.empty, false, some 75) := by
  decide +kernel

/-- The view of GROUPED (2) with two members so far: tag 2, PARCEL, its terminal tag, 2 of 2 (R74, R182). -/
theorem test_peek_grouped :
    (after (.peek 2) (opened worked)).dueBytes = [0, 0, 8, 2, 0, 0x00, 0xC9, 2, 2, 0, 0] := by decide +kernel

/-- 4.10: the WITHDRAW of slot 3. -/
theorem test_withdraw_queued :
    let t := after (.withdraw 3) (opened worked)
    ((t.slot 3).tag, (t.slot 3).label.map (·.refusal), t.ring.consignment, t.unit.recordsRefused, (t.slot 1).tag) =
      (.complete, some (some .withdrawn), some ⟨[1, 2], 1, to412⟩, 1, .grouped) := by decide +kernel

/-- 10.8, step 1: no clock, sequence counter or station number. -/
theorem test_status_at_reset :
    (after .status State.reset).dueBytes =
      [0, 0, 34, 0, 0, 0xFF, 0xFF, 0xFF, 0xFF, 0xFF, 0xFF, 0xFF, 0xFF] ++ List.replicate 24 0 := by decide +kernel

/-- 5.10: six flags set, Inexact and Restricted named. -/
theorem test_clear_named :
    let t := after (.clearSummary ⟨2, [4, 2]⟩) { at5 with unit := ⟨0b1111110, 2, 4, 0⟩ }
    (t.response, t.unit) = (some ⟨.ok, .summary 0b1111110⟩, ⟨0b1101010, 2, 4, 0⟩) := by decide +kernel

/-- Lot 137 at home: source HOME, AT_HOME, figures present, 12,000 / 90 / 3 (R118, R182). -/
theorem test_lot_view_home :
    (after (.lotView 137) at5).dueBytes =
      [0, 0, 15, 1, 0, 16, 0x00, 0x00, 0x2E, 0xE0, 0, 0, 0, 90, 0x00, 3, 0, 0] := by decide +kernel

/-- LEAVE with an owned lot sends it home (R144). -/
theorem test_leave_owned :
    let t := after .leave (station 5 700 [home137] (entryFor 138 .owned (some ⟨56550, 373, 19⟩)))
    (t.station, (t.entry 0).handingOver, (t.entry 0).frame.map (fun f => (f.kind, f.recipient))) =
      (.leaving, true, some (.handover, 3)) := by decide +kernel

/-- 10.8, step 2, and 11.3, event 1. -/
theorem test_reset_warm_unconfigured :
    after .resetWarm State.reset = { State.reset with response := some ⟨.state, .nothing⟩ } := by decide +kernel

theorem test_reset_warm_owner :
    let t := after .resetWarm (station 8 730 [] (entryFor 138 .ownedModified (some ⟨31550, 203, 16⟩)))
    (t.table.all (fun e => e.state == .free && e.lot == none), t.line.state, t.sequence) = (true, .listen, some 412) := by
  decide +kernel

theorem test_reset_full :
    after .resetFull at5 = { State.reset with response := some ⟨.ok, .nothing⟩ } := by decide +kernel

theorem test_unknown_code : (after (.unknownCommand (.code 11)) at5).dueBytes = [5, 0, 2, 1, 0] := by decide +kernel

/-- TDO carries FFH while the command comes in, where no response is due, and after the response's last byte (R172, R183). -/
theorem test_tdo_filler :
    (after (.unknownCommand (.code 11)) at5).tdo 3 7 = [0xFF, 0xFF, 0xFF, 5, 0, 2, 1, 0, 0xFF, 0xFF] ∧
    at5.tdo 1 2 = [0xFF, 0xFF, 0xFF] ∧
    ({ (after .status at5) with held := true } : State).tdo 0 2 = [0xFF, 0xFF] := by decide +kernel

theorem test_discarded : after .commandDiscarded at5 = at5 := by decide +kernel

theorem test_power_on_reset : after .powerOnReset (opened worked) = { State.reset with held := true } := by decide +kernel

theorem test_rstn_rise : (after .rstnRise { (opened worked) with held := true }).attn = true := by decide +kernel

/-- 11.1, the last row: the consignment is rated, debited and numbered in one event. -/
theorem test_rate_closes_consignment :
    let t := after .ratePositionActs (opened last)
    t.home.map (·.figures) = [⟨1650, 9, 0⟩] ∧ t.sequence = some 415 ∧ t.ring.consignment = none ∧ t.ring.watchdog = none ∧
      t.ring.rate = 4 ∧ t.unit.labelsIssued = 3 := by decide +kernel

theorem test_rate_labels_consignment :
    [1, 2, 3].map (fun i => ((after .ratePositionActs (opened last)).slot i).label.map (fun l =>
      (l.trackingNumber.drop 7, l.pieceIndex, l.charge, l.lot, l.cutOff))) =
      [some (digits [0, 0, 4, 1, 2, 1], 1, 3108, 137, 780), some (digits [0, 0, 4, 1, 3, 4], 2, 3108, 137, 780),
       some (digits [0, 0, 4, 1, 4, 7], 3, 3108, 137, 780)] := by decide +kernel

/-- 11.4: the clamped parcel finds no candidate and is labelled Dispatch pending, its error-summary mark Clamped and
Dispatch pending. -/
theorem test_rate_clamped :
    let s := station 5 745 [home 137 .atHome ⟨1650, 9, 0⟩] { entryFor 138 .copy (some ⟨33550, 218, 17⟩) with reclaimed := true }
    let t := after .ratePositionActs (withSlots { s with sequence := some 417 } [queued heavy] 1 0 1)
    (t.slot 0).label.map (fun l => (l.charge, l.chargeableWeight, l.errorSummary, l.trackingNumber.drop 7, l.lot)) =
      some (9999999, 579348, 0b1100000000000, digits [0, 0, 4, 1, 7, 6], 0) ∧
    t.home = s.home ∧ t.unit.summary = 0b1011000 := by decide +kernel

/-- R25: the piece before the offender is REFUSED ConsignmentPeer in its rating result, the one after it has none. -/
theorem test_rate_peers :
    (ratePieces (hall .halfUp) (.places false []) ⟨true, true⟩ 3 [worked, { worked with weight := 0 }, worked]).1.map
      (fun r => r.map (·.refusal)) = [some (some .consignmentPeer), some (some .invalid), none] := by decide +kernel

theorem test_watchdog :
    let t := after .watchdogExpires (opened worked)
    ([1, 2].map (fun i => (t.slot i).label.map (·.refusal)), t.ring.consignment, (t.slot 3).tag, t.unit.summary) =
      ([some (some .consignmentIncomplete), some (some .consignmentIncomplete)], none, .queued, BitVec.twoPow 16 9) := by
  decide +kernel

/-- 6.11, event 3: clock 780, lot 137 queues its TALLY. -/
theorem test_clock_cut_off :
    let t := after .clockAdvance (station 5 779 [home 137 .atHome ⟨1650, 9, 0⟩] LotEntry.cleared)
    (t.clock, t.home.map (fun r => r.frame.map (·.kind))) = (some ⟨780, 0⟩, [some .tally]) := by decide +kernel

/-- 11.3, event 5, the third expiry: STALL, unreachable for 3,200 ms, COPY, attempt 0, the request moves on. -/
theorem test_fetch_third_expiry :
    let e := { entryFor 138 .asking (some ⟨33550, 218, 17⟩) with
      attempts := 2, fetchTimer := some 0, waiting := [request 0 138 ⟨4000, 20, 1⟩ []] }
    let t := after (.fetchTimerExpires (.entry 0)) (withSlots (station 5 731 [home137] e) [seekingSlot] 1 1 0)
    ((t.entry 0).state, (t.entry 0).frame.map (·.kind), (t.entry 0).unreachable, (t.entry 0).attempts,
      (t.slot 0).label.map (·.dispatchPending)) = (.copy, some .stall, some 3200, 0, some true) := by decide +kernel

theorem test_publish_expiry :
    let t := after (.publishTimerExpires 0)
      (station 8 710 [] { entryFor 138 .ownedModified (some ⟨33550, 218, 17⟩) with publishTimer := some 0 })
    ((t.entry 0).frame.map (·.kind), (t.entry 0).publishTimer) = (some .notice, none) := by decide +kernel

theorem test_fault_expiry :
    (after .faultTimerExpires { at5 with line := { line with state := .faulted, faultTimer := some 0 } }).line.state = .listen := by
  decide +kernel

theorem test_beacon_expiry :
    (after .beaconTimerExpires { at5 with line := { line with beaconTimer := some 0 } }).line.hello = some 20 := by decide +kernel

theorem test_absence_expiry :
    (after (.absenceTimerExpires 3) { at5 with line.presence := line.presence.set 3 ⟨true, some 0⟩ }).isPresent 3 = false := by
  decide +kernel

/-- 10.8, steps 8 and 9. -/
theorem test_idle_interval :
    let t := after .idleIntervalSeen { at5 with line := { line with state := .listen } }
    (t.line.state, t.line.hello) = (.joining, some 20) := by decide +kernel

/-- 11.2, event 3 onwards: FETCH from 3 beats an own TALLY of a higher queuing time only by kind (R157). -/
theorem test_transmit_lowest_kind :
    let s := station 5 700 [{ home137 with frame := some ⟨.tally, 0, 9⟩ }]
      { entryFor 138 .asking none with frame := some ⟨.fetch, 0, 4⟩ }
    (after .transmitStart s).line.transmission = some ⟨.home 137, .tally, 9, none⟩ := by decide +kernel

/-- No start while the own frame is on the line (R149). -/
theorem test_transmit_waits :
    let s := { at5 with line := { line with hello := some 9, transmission := some ⟨.hello, .hello, 9, none⟩ } }
    after .transmitStart s = s := by decide +kernel

/-- 11.2, event 5: the HANDOVER's body is formed at the win, its recipient left out of the carried queue. -/
theorem test_win_forms_body :
    let e := { entryFor 138 .ownedModified (some ⟨56550, 373, 19⟩) with
      handingOver := true, queue := [3, 8], frame := some (frame .handover 3) }
    let s := station 5 704 [home137] e
    ((after .frameWinsLine { s with line.transmission := some ⟨.entry 0, .handover, 7, none⟩ }).line.transmission.map
      (·.formed)) = some (some ⟨5, .handover ⟨3, 138, ⟨56550, 373, 19⟩, 0, [8]⟩⟩) := by decide +kernel

theorem test_arbitration_lost :
    (after .arbitrationLost { at5 with line := { line with transmission := some ⟨.hello, .hello, 7, none⟩ } }).line = line := by
  decide +kernel

/-- The eighth failed attempt in a row (R154, R155). -/
theorem test_readback_eighth :
    let t := after .readbackFailure { (sending at5 .hello (frame .hello 0) (.hello 318 1)) with
      line.attempt := some ⟨.hello, 7, 7⟩ }
    (t.line.state, t.line.faultTimer, t.unit.summary, t.attn) = (.faulted, some 10000, BitVec.twoPow 16 12, true) := by
  decide +kernel

theorem test_readback_duplicate :
    let t := after .readbackDuplicate (sending at5 .hello (frame .hello 0) (.hello 318 1))
    (t.line.state, t.unit.summary, t.attn) = (.duplicate, BitVec.twoPow 16 13, true) := by decide +kernel

theorem test_truncated : after .frameTruncated waiting5 = waiting5 := by decide +kernel

theorem test_rejected :
    let t := after (.frameRejected ⟨[0x65], true⟩) at5
    (t.unit.framesRejected, t.line.droveSlot) = (1, true) := by decide +kernel

/-- R151: in the slot of its own frame a sender drives nothing, whatever it read. -/
theorem test_rejected_own :
    let t := after (.frameRejected ⟨[0x65], true⟩) (sending at5 .hello (frame .hello 0) (.hello 318 1))
    (t.unit.framesRejected, t.line.droveSlot, t.line.attempt.map (·.count)) = (1, false, some 1) := by decide +kernel

/-- R145 at a return by R128: a LEAVING station, every entry with a STALL pending, sends the lot to the carried head 8. -/
theorem test_return_leaving :
    let e := { LotEntry.cleared with frame := some (frame .stall 0) }
    let s := { station 5 704 [home137] e with table := List.replicate 48 e, station := .leaving }
    let t := after (.handoverAccepted 3 { cargo with queue := [8] }) s
    ((t.entry 0).lot, (t.entry 0).castout, (t.entry 0).frame.map (fun f => (f.kind, f.recipient)), t.station) =
      (some 138, false, some (.handover, 8), .leaving) := by decide +kernel

/-- 11.2, event 4, at station 5: the lot arrives, p is debited, leaving 56,550 / 373 / 19. -/
theorem test_handover_received :
    let t := after (.handoverAccepted 3 cargo) { waiting5 with sequence := some 415 }
    (t.entry 0).state = .ownedModified ∧ (t.entry 0).figures = some ⟨56550, 373, 19⟩ ∧ (t.entry 0).publishTimer = some 4000 ∧
      (t.slot 0).label.map (fun l => (l.lot, l.cutOff, l.trackingNumber.drop 7)) =
        some (138, 1080, digits [0, 0, 4, 1, 5, 0]) := by decide +kernel

/-- 11.2, event 4, at station 3: c fits the sent figures, so the home asks. -/
theorem test_handover_sent :
    let r := { home 138 .atHome ⟨60000, 400, 20⟩ with
      queue := [5], handingOver := true, frame := some (frame .handover 5), waiting := [request 0 138 ⟨14000, 60, 1⟩ []] }
    let s := sending (station 3 704 [r] LotEntry.cleared) (.home 138) (frame .handover 5) (.handover cargo)
    (after (.handoverAccepted 3 cargo) s).home.map (fun r => (r.state, r.lastSeen, r.attempts, r.frame.map (·.kind))) =
      [(.askingHome, some ⟨60000, 400, 20⟩, 0, some .fetch)] := by decide +kernel

/-- 11.3, event 9, at station 5 and at the home. -/
theorem test_reclaim_copy :
    let s := station 5 736 [home137] { entryFor 138 .copy (some ⟨33550, 218, 17⟩) with unreachable := some 5000 }
    let e := (after (.reclaimAccepted 3 138 ⟨33550, 218, 17⟩) s).entry 0
    (e.state, e.figures, e.reclaimed, e.unreachable) = (.copy, some ⟨33550, 218, 17⟩, true, none) := by decide +kernel

theorem test_reclaim_home :
    let r := { home 138 .askingHome .zero with
      lastSeen := some ⟨33550, 218, 17⟩, frame := some (frame .reclaim 0), waiting := [request 0 138 ⟨6000, 100, 1⟩ []] }
    let s := sending (withSlots (station 3 736 [r] LotEntry.cleared) [seekingSlot] 1 1 0) (.home 138) (frame .reclaim 0)
      (.reclaim 138 ⟨33550, 218, 17⟩)
    let t := after (.reclaimAccepted 3 138 ⟨33550, 218, 17⟩) s
    (t.home.map (fun r => (r.state, r.figures, r.reclaimed)), (t.slot 0).label.map (·.reclaimedLot)) =
      ([(.atHome, ⟨27550, 118, 16⟩, true)], some true) := by decide +kernel

/-- 6.11, event 4. -/
theorem test_tally :
    let s := sending (station 5 780 [{ home 137 .atHome ⟨1650, 9, 0⟩ with frame := some (frame .tally 0) }]
      LotEntry.cleared) (.home 137) (frame .tally 0) (.tally 137 ⟨1650, 9, 0⟩)
    (after (.tallyAccepted 5 137 ⟨1650, 9, 0⟩) s).home = [home 137 .ended ⟨1650, 9, 0⟩] := by decide +kernel

/-- 11.2, event 2, at station 3, and event 5, at station 5: 3 appended, publish timer stopped. -/
theorem test_fetch_home :
    (after (.fetchAccepted 5 138) (station 3 700 [home 138 .atHome ⟨60000, 400, 20⟩] LotEntry.cleared)).home.map
      (fun r => (r.queue, r.handingOver, r.frame)) = [([5], true, some ⟨.handover, 5, 20⟩)] := by decide +kernel

theorem test_fetch_entry :
    let s := station 5 704 [home137] { entryFor 138 .ownedModified (some ⟨56550, 373, 19⟩) with publishTimer := some 3000 }
    let e := (after (.fetchAccepted 3 138) s).entry 0
    (e.queue, e.publishTimer, e.frame) = ([3], none, some ⟨.handover, 3, 20⟩) := by decide +kernel

/-- 11.3, event 6. -/
theorem test_stall :
    (after (.stallAccepted 5 138) (station 3 731 [{ home 138 .away .zero with lastSeen := some ⟨33550, 218, 17⟩ }]
      LotEntry.cleared)).home.map (fun r => (r.state, r.attempts, r.frame.map (·.kind))) =
      [(.askingHome, 0, some .fetch)] := by decide +kernel

/-- 11.2, event 9, at stations 3 and 8. -/
theorem test_notice_home :
    (after (.noticeAccepted 8 138 ⟨33550, 218, 17⟩) (station 3 711 [{ home 138 .away .zero with
      lastSeen := some ⟨42550, 313, 18⟩ }] LotEntry.cleared)).home.map (fun r => (r.state, r.lastSeen)) =
      [(.away, some ⟨33550, 218, 17⟩)] := by decide +kernel

theorem test_notice_sent :
    let s := sending (station 8 711 [] { entryFor 138 .ownedModified (some ⟨33550, 218, 17⟩) with
      frame := some (frame .notice 0) }) (.entry 0) (frame .notice 0) (.notice 138 ⟨33550, 218, 17⟩)
    let e := (after (.noticeAccepted 8 138 ⟨33550, 218, 17⟩) s).entry 0
    (e.state, e.publishTimer, e.frame) = (.owned, none, none) := by decide +kernel

/-- 10.8, step 9, and R160. -/
theorem test_hello_own :
    let s := { at5 with line := { line with state := .joining, hello := some 7 } }
    let t := after (.helloAccepted 5 318 1) (sending s .hello (frame .hello 0) (.hello 318 1))
    (t.line.state, t.line.beaconTimer, t.line.hello, t.isPresent 5) = (.active, some 20000, none, true) := by decide +kernel

theorem test_hello_edition :
    let t := after (.helloAccepted 3 317 1) at5
    (t.unit.summary, t.isPresent 3) = (BitVec.twoPow 16 14, true) := by decide +kernel

theorem test_unknown_kind_duplicate :
    (after (.unknownKindFrameAccepted 5 [1]) at5).line.state = .duplicate := by decide +kernel

/-! ## An image -/

set_option maxRecDepth 100000

/-- Cells of bytes from an address, those of value FFH left out. -/
def cellsAt (a : Nat) (bs : Bytes) : Flash := (bs.zipIdx.map (fun b => (a + b.2, b.1))).filter (fun c => c.2 != 0xFF)

/-- One section at an address: kind, length, next offset and CRC of its body, then the body (R30). -/
def sectionAt (a kind next crc : Nat) (body : Bytes) (length : Nat) : Flash :=
  cellsAt a (toBytes 1 kind ++ toBytes 2 length ++ toBytes 2 next ++ toBytes 2 crc ++ [0] ++ body)

def summed (a kind next : Nat) (body : Bytes) : Flash := sectionAt a kind next (crc16 body).toNat body body.length

/-- One band to 30,000 g, divisor 5,000, no tax, no insurance (R184). -/
def rateBody : Bytes :=
  [1] ++ toBytes 4 30000 ++ (List.replicate 10 (toBytes 2 500)).flatten ++ toBytes 2 500 ++
    (List.replicate 10 (toBytes 2 100)).flatten ++ toBytes 2 5000 ++ toBytes 2 1250 ++ toBytes 2 0 ++ [0] ++ toBytes 4 0 ++
    toBytes 2 0 ++ toBytes 2 0

/-- Route 17 with one departure: cut-off 780, every service, 1,500 kg, 6,000 litres, 300 pieces, home 4. -/
def planBody : Bytes :=
  [1, 17, 1] ++ toBytes 2 780 ++ [7] ++ toBytes 2 1500 ++ toBytes 4 6000 ++ toBytes 2 300 ++ [4]

/-- An image of seven sections; its header has edition 318, HALF-UP and days 1 to `lastDay`. The ZONES body is four bytes
and then FFH, zone NONE throughout; its CRC is 5FEAH, a value that a byte FFH leaves as it is. -/
def image (lastDay : Nat) : Flash :=
  cellsAt 0 ([0x43, 0x56, 0x32, 0x54] ++ toBytes 2 318 ++ [0] ++ toBytes 2 1 ++ toBytes 2 lastDay ++ toBytes 2 16 ++ [0, 0, 0]) ++
  summed 16 2 90 rateBody ++ summed 90 3 170 rateBody ++ summed 170 4 250 rateBody ++
  summed 250 5 300 (List.replicate 36 0xFF) ++ summed 300 6 330 (List.replicate 14 0) ++
  summed 330 7 360 planBody ++ sectionAt 360 1 0 0x5FEA [0x0F, 19, 0x8F, 118] 2000

def imageHeader : ImageHeader := ⟨318, .halfUp, 1, 90, 16⟩

/-- Station 4 of 10.8 between steps 4 and 7. -/
def loading4 : State := after (.configure record4) State.reset

theorem test_header_passes : checkHeader loading4.config (readBytes (image 90) 0 16) = .ok imageHeader := by decide +kernel

def imageChain : List ChainSection :=
  [⟨16, 2, 62, 90, (crc16 rateBody).toNat⟩, ⟨90, 3, 62, 170, (crc16 rateBody).toNat⟩,
    ⟨170, 4, 62, 250, (crc16 rateBody).toNat⟩, ⟨250, 5, 36, 300, (crc16 (List.replicate 36 0xFF)).toNat⟩,
    ⟨300, 6, 14, 330, (crc16 (List.replicate 14 0)).toNat⟩, ⟨330, 7, 15, 360, (crc16 planBody).toNat⟩,
    ⟨360, 1, 2000, 0, 0x5FEA⟩]

theorem test_walk_follows_chain : walk (image 90) 16 16 = imageChain := by decide +kernel

theorem readFlash_unlisted (f : Flash) (a : Nat) (h : ∀ c ∈ f, c.1 < a) : readFlash f a = 0xFF := by
  rw [readFlash, List.find?_eq_none.2 (fun c hc => by have := h c hc; simp; omega)]

theorem image_below : ∀ c ∈ image 90, c.1 < 372 := by decide +kernel

theorem zones_first : readBytes (image 90) 368 4 = [0x0F, 19, 0x8F, 118] := by decide +kernel

theorem readBytes_add (f : Flash) (a m n : Nat) : readBytes f a (m + n) = readBytes f a m ++ readBytes f (a + m) n := by
  simp only [readBytes, List.range_add, List.map_append, List.map_map]
  congr 2
  funext i
  simp [Nat.add_assoc]

theorem readBytes_unlisted (f : Flash) (a n : Nat) (h : ∀ c ∈ f, c.1 < a) : readBytes f a n = List.replicate n 0xFF := by
  refine List.eq_replicate_iff.2 ⟨by simp [readBytes], fun b hb => ?_⟩
  obtain ⟨i, -, rfl⟩ := List.mem_map.1 hb
  exact readFlash_unlisted f _ (fun c hc => by have := h c hc; omega)

theorem zones_body : readBytes (image 90) 368 2000 = [0x0F, 19, 0x8F, 118] ++ List.replicate 1996 0xFF := by
  rw [show 2000 = 4 + 1996 from rfl, readBytes_add, zones_first, readBytes_unlisted _ _ _ image_below]

theorem crc_stays (n : Nat) : List.foldl crcByte 0x5FEA#16 (List.replicate n 0xFF) = 0x5FEA#16 := by
  induction n with
  | zero => rfl
  | succ n ih => rw [List.replicate_succ, List.foldl_cons, show crcByte 0x5FEA#16 0xFF = 0x5FEA#16 by decide +kernel, ih]

theorem zones_crc (n : Nat) : crc16 ([0x0F, 19, 0x8F, 118] ++ List.replicate n 0xFF) = 0x5FEA#16 := by
  rw [crc16, List.foldl_append, show List.foldl crcByte 0xFFFF#16 [0x0F, 19, 0x8F, 118] = 0x5FEA#16 by decide +kernel,
    crc_stays]

theorem zones_blank (n : Nat) : readZones (List.replicate (2 * n) 0xFF) = some (List.replicate n ⟨none, 255, true⟩) := by
  induction n with
  | zero => rfl
  | succ n ih =>
    rw [show 2 * (n + 1) = 2 * n + 1 + 1 by omega, List.replicate_succ, List.replicate_succ, readZones, ih]
    rfl

def zonesAfter (n : Nat) : List ZoneEntry := ⟨none, 19, false⟩ :: ⟨none, 118, true⟩ :: List.replicate n ⟨none, 255, true⟩

theorem zones_read (n : Nat) (h : n = 998) :
    zonesOf ([0x0F, 19, 0x8F, 118] ++ List.replicate (2 * n) 0xFF) = some (zonesAfter n) := by
  rw [zonesOf, if_pos (by simp only [List.length_append, List.length_replicate, h]; rfl)]
  simp only [List.cons_append, List.nil_append, readZones, zones_blank]
  rfl

def imageZones : List ZoneEntry := zonesAfter 998

theorem firstZones : firstOfKind .zones imageChain = some ⟨360, 1, 2000, 0, 0x5FEA⟩ := by decide +kernel

theorem zones_section (f : Flash) (n : Nat) (h : n = 998)
    (hb : readBytes f 368 2000 = [0x0F, 19, 0x8F, 118] ++ List.replicate (2 * n) 0xFF) :
    checkedSection f imageChain .zones zonesOf = .ok (zonesAfter n) ∧ sectionFault f imageChain .zones = none := by
  have hc : ChainSection.body f ⟨360, 1, 2000, 0, 0x5FEA⟩ =
      [0x0F, 19, 0x8F, 118] ++ List.replicate (2 * n) 0xFF := hb
  constructor
  · rw [checkedSection, firstZones]
    simp only [crcGood, hc, zones_crc, zones_read n h]
    rfl
  · rw [sectionFault, firstZones]
    simp only [consistent, hc, zones_crc, zones_read n h]
    rfl

def imageRate : RateSection :=
  ⟨[⟨30000, List.replicate 10 500⟩], 500, List.replicate 10 100, 5000, 1250, 0, false, 0, 0, 0, noSurcharges⟩

def blankRow : Surcharges := ⟨65535, 65535, 65535, 65535, 65535, 65535⟩

/-- What the image loads as at station 4 of 12. -/
def loaded : Tariff :=
  ⟨.halfUp, 318, 1, 90, imageZones, { imageRate with surcharges := blankRow }, { imageRate with surcharges := blankRow },
    { imageRate with surcharges := blankRow }, List.replicate 7 0,
    [⟨17, 0, 780, ⟨true, true, true⟩, ⟨1500000, 6000, 300⟩, 4⟩], .places false []⟩

theorem loadImage_past_header (c : Configuration) (f : Flash) (h : ImageHeader)
    (hh : checkHeader c (readBytes f 0 16) = .ok h) : loadImage c f = loadSections f c h (walk f Config.walkLimit h.first) := by
  simp only [loadImage, hh, bind, Except.bind]

theorem loadSections_ok (f : Flash) (c : Configuration) (h : ImageHeader) (ch : List ChainSection) (z : List ZoneEntry)
    (e s p : RateSection) (u : Surcharges × Surcharges × Surcharges) (d : List Nat) (l : List Departure) (sc : Screen)
    (hz : checkedSection f ch .zones zonesOf = .ok z) (he : checkedSection f ch .ratesEconomy rateOf = .ok e)
    (hs : checkedSection f ch .ratesStandard rateOf = .ok s) (hp : checkedSection f ch .ratesPriority rateOf = .ok p)
    (hu : checkedSection f ch .surcharges surchargesOf = .ok u) (hd : checkedSection f ch .discounts discountsOf = .ok d)
    (hl : checkedSection f ch .dispatchPlan planOfBody = .ok l) (hc : defaultScreenOf f ch = sc) :
    loadSections f c h ch = .ok ⟨h.mode, h.edition, h.firstDay, h.lastDay, z, { e with surcharges := u.1 },
      { s with surcharges := u.2.1 }, { p with surcharges := u.2.2 }, d, l.map (substituteHome c.stationCount), sc⟩ := by
  simp only [loadSections, hz, he, hs, hp, hu, hd, hl, hc, bind, Except.bind, pure, Except.pure]

theorem image_loads : loadImage loading4.config (image 90) = .ok loaded := by
  rw [loadImage_past_header _ _ _ test_header_passes,
    show walk (image 90) Config.walkLimit imageHeader.first = imageChain from test_walk_follows_chain,
    loadSections_ok (image 90) _ imageHeader imageChain imageZones imageRate imageRate imageRate
      (blankRow, blankRow, blankRow) (List.replicate 7 0) [⟨17, 0, 780, ⟨true, true, true⟩, ⟨1500000, 6000, 300⟩, 4⟩]
      (.places false []) (zones_section _ 998 rfl zones_body).1 (by decide +kernel) (by decide +kernel) (by decide +kernel)
      (by decide +kernel) (by decide +kernel) (by decide +kernel) (by decide +kernel)]
  rfl

theorem after_load (s : State) (f : Flash) (t : Tariff) (hh : s.held = false) (hs : s.station = .loading)
    (ht : loadImage s.config f = .ok t) : after (.loadCompletes f) s = s.completeLoad t := by
  simp [after, exec, execLoadCompletes, State.whenRunning, State.endLoad, hs, hh, ht]

/-- 10.8, step 7: READY, LISTEN, lot 136 at home with its plan capacity, edition 318. -/
theorem test_load_completes :
    let t := after (.loadCompletes (image 90)) loading4
    t.station = .ready ∧ t.line.state = .listen ∧ t.home = [home 136 .atHome ⟨1500000, 6000, 300⟩] ∧ t.edition = 318 ∧
      t.attn = false := by
  rw [after_load _ _ _ rfl rfl image_loads]
  decide +kernel

/-- 10.8, the days that leave out day 45. -/
theorem test_load_faults :
    let t := after (.loadFaults (image 44)) loading4
    (t.station, t.store, t.unit.summary, t.line.state) = (.tariffFault, .faulted .dayRange, BitVec.twoPow 16 11, .off) := by
  decide +kernel

/-- A blank flash, and an image without ZONES (R29, R32). -/
theorem test_load_fault_codes :
    loadImage loading4.config [] = .error .flashSilent ∧
    loadImage loading4.config ((image 90).filter (fun c => c.1 < 360)) = .error (.missing .zones) := by decide +kernel

/-- Bytes 13 to 15 decide nothing in check 1 (R29, R184). -/
theorem test_spare_header_bytes :
    checkHeader loading4.config (List.replicate 13 0xFF ++ [0, 0, 0]) = .error .flashSilent ∧
    checkHeader loading4.config (List.replicate 13 0 ++ [1, 2, 3]) = .error .flashSilent ∧
    checkHeader loading4.config (0x44 :: List.replicate 15 0xFF) = .error .badMarker := by decide +kernel

/-! ## States that meet the statements' hypotheses, by the statement's name -/

/-- No GROUPED slot at all, so RingFits asks nothing of an open consignment. -/
theorem ringFits_closed (s : State)
    (hl : s.ring.slots.length = 8 ∧ s.ring.put < 8 ∧ s.ring.rate < 8 ∧ s.ring.pendingCount ≤ 8 ∧
      s.ring.put = (s.ring.rate + s.ring.pendingCount) % 8)
    (hq : ∀ k, k < 8 → (s.ahead k).tag = .queued → k < s.ring.pendingCount)
    (hk : ∀ k, k < s.ring.pendingCount → (s.ahead k).tag ≠ .grouped ∧ (s.ahead k).tag ≠ .seeking)
    (hf : ∀ x ∈ s.ring.slots, x.Fits) (hw : s.ring.watchdog = none) (hc : s.ring.consignment = none)
    (hg : ∀ x ∈ s.ring.slots, x.tag ≠ .grouped) (hs : s.station ≠ .ready → ∀ x ∈ s.ring.slots, x.tag = .empty) :
    s.RingFits := by
  refine ⟨hl.1, hl.2.1, hl.2.2.1, hl.2.2.2.1, hl.2.2.2.2, hq, hk, hf, by simp [hw, hc], fun i => ?_, by simp [hc], hs⟩
  simp only [hc, reduceCtorEq, false_and, exists_false, iff_false, State.slot]
  by_cases h : i < s.ring.slots.length
  · rw [List.getD_eq_getElem?_getD, List.getElem?_eq_getElem h]; exact hg _ (List.getElem_mem h)
  · rw [List.getD_eq_getElem?_getD, List.getElem?_eq_none (by omega)]; decide

theorem opened_fits (p : ParcelRecord) : (opened p).RingFits := by
  refine ⟨rfl, by show 4 < 8; decide, by show 3 < 8; decide, by show 1 ≤ 8; decide, rfl, fun k hk => ?_, fun k hk => ?_, ?_,
    rfl, fun i => ?_, ?_, fun h => absurd rfl h⟩
  · match k, hk with
    | 0, _ => intro _; show 0 < 1; decide
    | 1, _ | 2, _ | 3, _ | 4, _ | 5, _ | 6, _ | 7, _ =>
      simp [State.ahead, State.slot, opened, doneSlot, grouped, queued, Slot.vacant]
  · obtain rfl : k = 0 := by have : k < 1 := hk; omega
    exact ⟨by simp [State.ahead, State.slot, opened, queued], by simp [State.ahead, State.slot, opened, queued]⟩
  · intro x hx
    simp only [opened, List.cons_append, List.nil_append, List.mem_cons, List.mem_replicate] at hx
    obtain rfl | rfl | rfl | rfl | ⟨_, rfl⟩ := hx <;> simp [Slot.Fits, doneSlot, grouped, queued, Slot.vacant]
  · have e : (opened p).ring.consignment = some ⟨[1, 2], 1, to412⟩ := rfl
    simp only [e, Option.some.injEq, exists_eq_left']
    match i with
    | 0 | 1 | 2 | 3 | 4 | 5 | 6 | 7 => simp [State.slot, opened, doneSlot, grouped, queued, Slot.vacant]
    | n + 8 => simp [State.slot, opened, Slot.vacant]
  · intro c hc
    obtain rfl : (⟨[1, 2], 1, to412⟩ : Consignment) = c := Option.some.inj hc
    decide

def line5 : State := { at5 with line := { line with beaconTimer := some 5, attempt := some ⟨.hello, 7, 7⟩ } }

theorem test_meets_IdleStepCountsOneMillisecond : (opened worked).pending = [] := rfl

theorem test_meets_RangesKeptByEveryStep :
    ({ at5 with
      pending := [.status], ring.pendingCount := 8, ring.put := 7, sequence := some 100000, clock := some ⟨2879, 60000⟩
      unit := ⟨0, 65535, 65535, 65535⟩ } : State).InRange ∧
    ∃ t, step { at5 with pending := [.status] } = .next t := by
  refine ⟨⟨by decide +kernel, by decide, by decide, by decide, by decide +kernel, by decide +kernel, by decide, by decide,
    by decide, ?_, ?_⟩, ⟨_, rfl⟩⟩
  · intro c hc; obtain rfl : (⟨2879, 60000⟩ : StationClock) = c := Option.some.inj hc; decide
  · intro c hc; obtain rfl : 100000 = c := Option.some.inj hc; decide

theorem agrees_at5 (s : State) (hs : s = line5) : s.BlocksAgree ∧ ∃ t, step s = .next t := by
  subst hs
  refine ⟨⟨rfl, by decide, by decide, by decide, by decide, by decide, by decide, by decide, by decide, ?_⟩, ⟨_, rfl⟩⟩
  intro a ha; obtain rfl : (⟨.hello, 7, 7⟩ : Attempt) = a := Option.some.inj ha; decide

theorem test_meets_BlocksAgreeAfterEveryStep : line5.BlocksAgree ∧ ∃ t, step line5 = .next t := agrees_at5 _ rfl

theorem test_meets_RingFitsAfterEveryStep : (opened last).RingFits ∧ ∃ t, step (opened last) = .next t :=
  ⟨opened_fits last, ⟨_, rfl⟩⟩

/-- A lot waited for in an entry, another at home: every clause of LotsFit has something to say. -/
theorem waiting5_fits (s : State) (hs : s = waiting5) : s.LotsFit := by
  subst hs
  have ht : ∀ e ∈ waiting5.table, e = asking138 ∨ e = LotEntry.cleared := by decide +kernel
  refine ⟨by decide +kernel, by decide +kernel, ?_, ?_, ?_, ?_, ?_, fun h => absurd h (by decide)⟩
  · intro r hr; obtain rfl := List.mem_singleton.1 hr; exact ⟨.nil, by simp [home137, home]⟩
  · intro e he lot hl
    obtain rfl | rfl := ht e he
    · obtain rfl : 138 = lot := Option.some.inj hl
      exact ⟨List.pairwise_singleton _ _, by decide⟩
    · exact absurd hl (by simp [LotEntry.cleared])
  · intro e he c hc
    obtain rfl | rfl := ht e he <;> exact absurd hc (by simp [asking138, entryFor, LotEntry.cleared])
  · intro r hr
    obtain rfl := List.mem_singleton.1 hr
    refine ⟨fun _ t ht => ?_, fun f hf => absurd hf (by simp [home137, home])⟩
    obtain rfl : hall .halfUp = t := by injection ht
    exact ⟨⟨17, 1, 780, ⟨true, true, true⟩, ⟨1500000, 6000, 300⟩, 5⟩, by decide, by decide⟩
  · intro e he lot f _ hf
    obtain rfl | rfl := ht e he <;> exact absurd hf (by simp [asking138, entryFor, LotEntry.cleared])

theorem test_meets_HomeLotsStayDistinct :
    at5.HomeDistinct ∧ (∃ t, step at5 = .next t) ∧ waiting5.LotsFit ∧ ∃ t, step waiting5 = .next t :=
  ⟨by unfold State.HomeDistinct; decide, ⟨_, rfl⟩, waiting5_fits _ rfl, ⟨_, rfl⟩⟩

def duplicate5 : State := { at5 with line := { line with state := .duplicate } }

theorem test_meets_DuplicateLeftByFullResetsAlone :
    duplicate5.BlocksAgree ∧ duplicate5.line.state = .duplicate ∧ (∃ t, exec .resetWarm duplicate5 = .next t) ∧
      Instr.isFullReset .resetWarm = false := by
  refine ⟨⟨rfl, by decide, by decide, by decide, by decide, by decide, by decide, by decide, by decide, ?_⟩, rfl, ⟨_, rfl⟩,
    rfl⟩
  intro a ha; simp [duplicate5, at5, station, line, LineController.cleared] at ha

theorem test_meets_FlagsClearedByClearAndFullResetsAlone :
    (∃ t, exec .resetWarm { at5 with unit := ⟨0xFFFF, 0, 0, 0⟩ } = .next t) ∧ Instr.isFullReset .resetWarm = false ∧
      (∀ l, Instr.resetWarm ≠ .clearSummary l) ∧ flagSet 0xFFFF .lotReclaimed = true :=
  ⟨⟨_, rfl⟩, rfl, by simp, by decide⟩

theorem test_meets_DoneSlotsWaitForTheTerminal :
    (opened last).RingFits ∧ (∃ t, exec .ratePositionActs (opened last) = .next t) ∧
      Instr.isFullReset .ratePositionActs = false ∧ ((opened last).slot 0).tag = .complete :=
  ⟨opened_fits last, ⟨_, rfl⟩, rfl, rfl⟩

theorem test_meets_OneConfigurationThroughout :
    line5.BlocksAgree ∧ (∃ t, exec .ratePositionActs line5 = .next t) ∧ line5.configuration = some (setup 5) ∧
      line5.store = .loaded (hall .halfUp) ∧ line5.sequence = some 412 :=
  ⟨(agrees_at5 _ rfl).1, ⟨_, rfl⟩, rfl, rfl, rfl⟩

def ended5 : State := station 5 800 [home 137 .ended ⟨1650, 9, 0⟩] LotEntry.cleared

theorem test_meets_EndedRecordsStayEnded :
    ended5.HomeDistinct ∧ ended5.station ≠ .loading ∧ (∃ t, exec (.fetchAccepted 3 137) ended5 = .next t) ∧
      home 137 .ended ⟨1650, 9, 0⟩ ∈ ended5.home :=
  ⟨by unfold State.HomeDistinct; decide, by decide, ⟨_, rfl⟩, by decide⟩

theorem test_meets_AttnAndTheHeldEngine :
    { at5 with held := true }.held = true ∧ Instr.status ≠ .powerOnReset ∧ Instr.status ≠ .rstnRise := by decide

theorem test_meets_PortCommandsRoundTrip :
    [Instr.submit (.parcel worked), .configure record4, .submit (.screen screen412), .submit (.unknownKind 2),
      .clearSummary ⟨16, List.replicate 16 15⟩, .clearSummary ⟨17, []⟩, .lotView 65535, .unknownCommand (.code 0),
      .unknownCommand (.length 2 26), .unknownCommand (.length 7 1), .unknownCommand (.resetArgument 3)].all
      (fun i => i.fromTerminal && i != .commandDiscarded && decodeCommand (encodeCommand i) == i) = true ∧
    (Instr.clearSummary ⟨16, List.replicate 16 15⟩).wf ∧ (Instr.unknownCommand (.length 2 26)).wf := by decide +kernel

theorem test_meets_HallFramesRoundTrip :
    [(⟨31, .handover { cargo with queue := List.range 31 }⟩ : HallFrame), ⟨0, .reclaim 65535 ⟨4294967295, 0, 65535⟩⟩,
      ⟨9, .fetch 201⟩, ⟨4, .hello 318 0xFFFFFFFF⟩, ⟨4, .unknown []⟩].all
      (fun f => decodeFrame (frameBytes f) == some f) = true ∧
    (⟨31, .handover { cargo with queue := List.range 31 }⟩ : HallFrame).wf := by decide +kernel

theorem test_meets_RoundingByMode : 0 < 100 ∧ 2 * (327150 % 100) = 100 ∧ 327100 % 100 = 0 := by decide

theorem test_meets_RatedComponentsAddUp :
    (∀ d ∈ (hall .halfUp).discounts, d ≤ 5000) ∧
    (rateRecord (hall .halfUp) (.places false []) ⟨true, true⟩ (some 3) worked).1.refusal = none ∧
    (rateRecord (hall .halfUp) (.places false []) ⟨true, true⟩ none worked).1.clamped = false ∧
    (rateRecord (hall .halfUp) (.places false []) ⟨true, true⟩ none heavy).1.clamped = true := by decide +kernel

theorem test_meets_OneOffenderInARefusedConsignment :
    (ratePieces (hall .halfUp) (.places false []) ⟨true, true⟩ 3 [worked, { worked with weight := 0 }, worked]).2.2 = false := by
  decide +kernel

theorem test_meets_CheckDigitFindsOneWrongDigit :
    (digits [0, 4, 5, 0, 7, 0, 0, 3, 1, 8]).length = 10 ∧ (∀ y ∈ digits [0, 4, 5, 0, 7, 0, 0, 3, 1, 8], isDigit y = true) ∧
      isDigit 0x39 = true ∧ (digits [0, 4, 5, 0, 7, 0, 0, 3, 1, 8])[9]'(by decide) ≠ 0x39 := by decide

theorem test_meets_TrackingNumbersDiffer : (setup 5).networkPrefix.length = 2 ∧ 99999 < 100000 := by decide

def seeking2 : State := withSlots at5 [seekingSlot, seekingSlot] 2 2 0

theorem test_meets_MembersNumberedInRingOrder :
    seeking2.sequence = some 412 ∧ [1, 0].Nodup ∧
      (∀ i ∈ [1, 0], (seeking2.slot i).tag = .seeking ∧ (seeking2.slot i).record = some (.parcel worked)) := by decide +kernel

theorem test_meets_RequiredKindsInOrder :
    checkHeader loading4.config (readBytes (image 90) 0 16) = .ok imageHeader ∧
    requiredKinds.findSome? (sectionFault (image 90) (walk (image 90) 16 imageHeader.first)) = none ∧
    (sectionFault ((image 90).filter (fun c => c.1 < 360)) (walk ((image 90).filter (fun c => c.1 < 360)) 16 16) .zones) =
      some (.missing .zones) := by
  refine ⟨test_header_passes, ?_, by decide +kernel⟩
  have hz : sectionFault (image 90) imageChain .zones = none := (zones_section _ 998 rfl zones_body).2
  rw [show walk (image 90) 16 imageHeader.first = imageChain from test_walk_follows_chain, requiredKinds,
    List.findSome?_cons, hz]
  decide +kernel

theorem test_meets_WalkMovesForward :
    (walk (image 90) 16 16)[0]? = imageChain[0]? ∧ (walk (image 90) 16 16)[5]? = imageChain[5]? ∧
      (walk (image 90) 16 16)[6]? = imageChain[6]? := by simp [test_walk_follows_chain]

theorem test_meets_LoadCompletes :
    loading4.held = false ∧ loading4.station = .loading ∧ 1 ≤ loading4.config.stationCount ∧
      loadImage loading4.config (image 90) = .ok loaded := ⟨rfl, rfl, by decide +kernel, image_loads⟩

theorem test_meets_LoadFaults : loadImage loading4.config (image 44) = .error .dayRange := by decide +kernel

theorem test_meets_ConfigureStoresOrNamesTheBadField :
    State.reset.held = false ∧ State.reset.station = .unconfigured ∧ failingField record4 = none ∧
      (configChecks record4).all id = true ∧ (configChecks { record4 with stationNumber := 12 })[1]? = some false ∧
      (configChecks { record4 with maskClearing := 8 })[11]? = some false := by decide

theorem test_meets_CommandsNotTakenAreAnswered :
    (loading4.station = .loading ∧ Instr.fromTerminal .leave = true) ∧ State.reset.station = .unconfigured ∧
      at5.station = .ready ∧ ({ at5 with station := .serving }).station = .serving := by decide +kernel

theorem test_meets_SubmitPlacesOrAnswersFull :
    at5.held = false ∧ at5.station = .ready ∧ ((at5.slot at5.ring.put).tag = .empty ∧ at5.ring.pendingCount < 8) ∧
      ¬ ((doneSlot).tag = .empty) := by decide +kernel

theorem test_meets_CollectReturnsAndEmpties :
    (opened last).held = false ∧ (opened last).station ≠ .loading ∧ ((opened last).slot 0).tag = .complete ∧
      ((opened last).slot 0).link = none ∧ ((opened last).slot 7).tag ≠ .complete := by decide +kernel

theorem test_meets_PeekShowsTheSlot :
    ((opened last).slot 0).tag = .complete ∧ ((opened last).slot 0).screenResult = none ∧
      ((opened last).slot 0).label.isSome = true ∧ ((opened last).slot 2).tag = .grouped ∧
      ((opened last).slot 3).link = none ∧ ((opened last).slot 7).record = none := by decide +kernel

theorem test_meets_WithdrawOfOneSlot :
    ((opened last).slot 7).tag = .empty ∧ ((opened last).slot 3).tag = .queued ∧
      ((opened last).slot 3).record = some (.parcel last) := by decide +kernel

theorem test_meets_OpenConsignmentRefusedWhole :
    (opened last).held = false ∧ (opened last).RingFits ∧ (opened last).ring.consignment = some ⟨[1, 2], 1, to412⟩ ∧
      2 ∈ [1, 2] ∧ (opened last).station ≠ .loading :=
  ⟨rfl, opened_fits last, rfl, by decide, by decide⟩

theorem test_meets_WithdrawOfASeekingSlot :
    (waiting5.slot 0).tag = .seeking ∧ (waiting5.slot 0).link = none ∧ [0].Nodup ∧
      (waiting5.slot 0).record = some (.parcel worked) ∧ (waiting5.entry 0).waiting ≠ [] := by decide +kernel

theorem test_meets_ClearReturnsAndClears :
    loading4.station = .loading ∧ at5.station ≠ .loading ∧ (∀ c ∈ [15, 0], c ≤ 15) ∧ ¬ (17 ≤ 16) ∧ ¬ (∀ c ∈ [16], c ≤ 15) := by
  decide +kernel

theorem test_meets_LotViewShowsTheRecord :
    at5.held = false ∧ at5.inService = true ∧ at5.planLot 139 = none ∧ (at5.planLot 137).isSome = true ∧
      at5.findHome 137 = some home137 ∧ waiting5.findHome 138 = none ∧ waiting5.entryOf 138 = some 0 ∧
      at5.entryOf 138 = none ∧ at5.incomingOf 138 = none := by decide +kernel

def castEntry : LotEntry :=
  { entryFor 136 .owned (some ⟨1000, 10, 5⟩) with
    castout := true, handingOver := true, frame := some (frame .handover 4)
    incoming := some ⟨138, [request 0 138 ⟨3450, 27, 1⟩ []]⟩ }

def castout5 : State := withSlots (station 5 500 [home137] castEntry) [seekingSlot] 1 1 0

theorem test_meets_LotViewShowsTheRecord_incoming :
    castout5.findHome 138 = none ∧ castout5.entryOf 138 = none ∧ castout5.incomingOf 138 = some 0 ∧
      (castout5.entry 0).incoming = some ⟨138, [request 0 138 ⟨3450, 27, 1⟩ []]⟩ := by decide +kernel

theorem test_meets_LeaveSendsTheLotsHome :
    at5.held = false ∧ at5.station = .ready ∧ (∀ x ∈ at5.ring.slots, x.tag = .empty) ∧
      (∃ x ∈ (opened last).ring.slots, x.tag ≠ .empty) ∧
      (entryFor 138 .owned (some ⟨1, 1, 1⟩)).frame = none ∧
      ((entryFor 138 .asking none).fetchTimer = none ∧ (entryFor 138 .asking none).attempts = 0) := by decide +kernel

theorem test_meets_WarmResetKeepsTheDay :
    at5.held = false ∧ at5.station = .ready ∧ at5.HomeDistinct ∧ at5.home[0]? = some home137 :=
  ⟨rfl, rfl, by unfold State.HomeDistinct; decide, rfl⟩

theorem aboutToTake_alone (p : ParcelRecord) : (alone p).AboutToTake (hall .halfUp) 0 (.parcel p) :=
  ⟨rfl, rfl, rfl, rfl, by show 0 < 1; decide, rfl, rfl⟩

theorem aboutToTake_opened (p : ParcelRecord) : (opened p).AboutToTake (hall .halfUp) 3 (.parcel p) :=
  ⟨rfl, rfl, rfl, rfl, by show 0 < 1; decide, rfl, rfl⟩

theorem test_meets_SingleRefusedAtRating :
    (alone { worked with weight := 70001 }).AboutToTake (hall .halfUp) 0 (.parcel { worked with weight := 70001 }) ∧
      (rateRecord (hall .halfUp) (.places false []) ⟨true, true⟩ none { worked with weight := 70001 }).1.refusal = some .invalid :=
  ⟨aboutToTake_alone _, by decide +kernel⟩

theorem test_meets_SingleLabelledFromALotAtHome :
    let s := alone worked
    s.AboutToTake (hall .halfUp) 0 (.parcel worked) ∧ candidatesOf (hall .halfUp) s.minute 17 1 = [⟨137, 780⟩, ⟨138, 1080⟩] ∧
      s.planLot 137 = some ⟨17, 1, 780, ⟨true, true, true⟩, ⟨1500000, 6000, 300⟩, 5⟩ ∧ s.own = 5 ∧
      s.findHome 137 = some home137 ∧ (∀ x ∈ s.home, x.lot = 137 → x = home137) ∧ (s.slot 0).link = none :=
  ⟨aboutToTake_alone _, by decide +kernel, by decide +kernel, rfl, by decide +kernel, by decide +kernel, rfl⟩

/-- The same parcel after the last cut-off, the counter at its last number and exhausted. -/
def late (n : Nat) : State := { alone worked with clock := some ⟨1080, 0⟩, sequence := some n }

theorem test_meets_SingleWithoutCandidate :
    (∀ n, (late n).AboutToTake (hall .halfUp) 0 (.parcel worked)) ∧ candidatesOf (hall .halfUp) (late 99999).minute 17 1 = [] ∧
      (late 99999).config.noDispatchMask = true :=
  ⟨fun _ => aboutToTake_alone worked, by decide +kernel, rfl⟩

theorem fits_alone (p : ParcelRecord) : (alone p).RingFits := by
  refine ringFits_closed _ ⟨rfl, by show 1 < 8; decide, by show 0 < 8; decide, by show 1 ≤ 8; decide, rfl⟩ (fun k hk => ?_)
    (fun k hk => ?_) ?_ rfl rfl ?_ (fun h => absurd rfl h)
  · match k, hk with
    | 0, _ => intro _; show 0 < 1; decide
    | 1, _ | 2, _ | 3, _ | 4, _ | 5, _ | 6, _ | 7, _ => simp [State.ahead, State.slot, alone, withSlots, queued, Slot.vacant]
  · obtain rfl : k = 0 := by have : k < 1 := hk; omega
    exact ⟨by simp [State.ahead, State.slot, alone, withSlots, queued], by simp [State.ahead, State.slot, alone, withSlots, queued]⟩
  · intro x hx
    simp only [alone, withSlots, List.cons_append, List.nil_append, List.mem_cons, List.mem_replicate] at hx
    obtain rfl | ⟨_, rfl⟩ := hx <;> simp [Slot.Fits, queued, Slot.vacant]
  · intro x hx
    simp only [alone, withSlots, List.cons_append, List.nil_append, List.mem_cons, List.mem_replicate] at hx
    obtain rfl | ⟨_, rfl⟩ := hx <;> simp [queued, Slot.vacant]

theorem test_meets_PiecesAreGrouped_none_open :
    (alone first).AboutToTake (hall .halfUp) 0 (.parcel first) ∧ (alone first).RingFits ∧ first.pieceMark = 1 ∧
      (alone first).ring.consignment = none ∧ (alone last).RingFits ∧ last.pieceMark = 3 :=
  ⟨aboutToTake_alone _, fits_alone _, rfl, rfl, fits_alone _, rfl⟩

theorem test_meets_PiecesAreGrouped_open :
    (opened middle).AboutToTake (hall .halfUp) 3 (.parcel middle) ∧ (opened middle).RingFits ∧ middle.pieceMark = 2 ∧
      middle.service = 1 ∧ middle.destination = to412 ∧ ({ last with service := 0 }).service ≠ 1 :=
  ⟨aboutToTake_opened _, opened_fits _, rfl, rfl, rfl, by decide⟩

def screening (q : ScreenRecord) : State :=
  withSlots at5 [{ Slot.vacant with tag := .queued, record := some (.screen q) }] 1 0 1

theorem test_meets_ScreenRecordsAppliedOrRejected :
    (screening screen412).AboutToTake (hall .halfUp) 0 (.screen screen412) ∧ (screening screen412).ring.consignment = none ∧
      screen412.body.kind = 0 ∧ screen412.body.entries.length = 16 ∧
      (∀ e ∈ screen412.body.entries.take 1, (e.length = 3 ∨ e.length = 6) ∧ ∀ b ∈ e.characters.take e.length, isDigit b = true) ∧
      spare.length ≠ 3 ∧ spare.length ≠ 6 ∧
      { (alone worked) with ring.rate := 7 }.ring.rate = 7 ∧ ({ (alone worked) with ring.rate := 7 }.slot 7).tag = .empty :=
  ⟨⟨rfl, rfl, rfl, rfl, by show 0 < 1; decide, rfl, rfl⟩, rfl, rfl, rfl, by decide, by decide, by decide, rfl, rfl⟩

def minute779 : State := station 5 779 [home137] LotEntry.cleared

theorem test_meets_ClockAdvancesToCutOffs :
    minute779.held = false ∧ minute779.clock = some ⟨779, 0⟩ ∧
      (hall .halfUp).plan.filter (fun d => d.cutOff == 780) = [⟨17, 1, 780, ⟨true, true, true⟩, ⟨1500000, 6000, 300⟩, 5⟩] ∧
      minute779.findHome 137 = some home137 ∧ minute779.entryOf 137 = none ∧ minute779.incomingOf 137 = none ∧
      (∀ d ∈ (hall .halfUp).plan, d.cutOff ≠ 779) ∧ 2879 ≤ (⟨2879, 0⟩ : StationClock).minute := by decide +kernel

def asker (attempts : Nat) : LotEntry :=
  { entryFor 138 .asking (some ⟨33550, 218, 17⟩) with attempts := attempts, fetchTimer := some 0 }

def homeAsker (attempts : Nat) : HomeRecord := { home 138 .askingHome .zero with attempts := attempts, fetchTimer := some 0 }

def timers : State :=
  { station 5 700 [home137] { entryFor 138 .ownedModified (some ⟨33550, 218, 17⟩) with publishTimer := some 0 } with
    line := { line with beaconTimer := some 0, presence := line.presence.set 31 ⟨true, some 0⟩ } }

theorem test_meets_TimersExpire :
    (station 5 700 [] (asker 1)).table[0]? = some (asker 1) ∧ (asker 1).frame = none ∧ (asker 2).waiting = [] ∧
      (station 3 700 [homeAsker 2] LotEntry.cleared).findHome 138 = some (homeAsker 2) ∧
      (∀ x ∈ (station 3 700 [homeAsker 2] LotEntry.cleared).home, x.lot = 138 → x = homeAsker 2) ∧
      (timers.table[0]?.map (·.publishTimer)) = some (some 0) ∧ timers.line.beaconTimer.isSome = true ∧
      timers.line.presence[31]? = some ⟨true, some 0⟩ ∧
      ({ line with state := .faulted, faultTimer := some 0 } : LineController).faultTimer.isSome = true := by decide +kernel

def joining5 : State :=
  sending { at5 with line := { line with state := .joining, hello := some 7 } } .hello (frame .hello 0) (.hello 318 1)

theorem test_meets_StationJoinsTheLine :
    ({ at5 with line := { line with state := .listen } }).line.state = .listen ∧ joining5.line.state = .joining ∧
      joining5.line.hello = some 7 ∧
      joining5.line.transmission = some ⟨.hello, .hello, 7, some ⟨joining5.own, .hello 318 1⟩⟩ ∧
      at5.line.transmission = none ∧ 3 ≠ at5.own ∧ at5.edition = 318 := by decide +kernel

def offering : State :=
  { station 5 700 [home137] { entryFor 138 .ownedModified (some ⟨33550, 218, 17⟩) with frame := some (frame .handover 3) } with
    line := { line with transmission := some ⟨.entry 0, .handover, 7, none⟩ } }

theorem test_meets_FramesOfferedAndFormed :
    offering.line.state = .active ∧ offering.pendingLotFrames ++ offering.pendingHello ≠ [] ∧
      at5.pendingLotFrames ++ at5.pendingHello = [] ∧ offering.pendingFrame (.entry 0) = some (frame .handover 3) ∧
      (offering.table[0]?.map (·.lot)) = some (some 138) ∧ at5.pendingFrame (.entry 0) = none := by decide +kernel

def failing (count : Nat) : State :=
  { joining5 with line := { joining5.line with attempt := some ⟨.hello, 7, count⟩ } }

theorem test_meets_FailedAttemptsLeadToFaulted :
    (failing 7).line.state = .joining ∧ (failing 7).line.transmission = some ⟨.hello, .hello, 7, some ⟨5, .hello 318 1⟩⟩ ∧
      at5.line.state = .active ∧ at5.line.transmission = none := by decide +kernel

theorem test_meets_DuplicateNumberFound :
    joining5.held = false ∧ joining5.line.state ≠ .off ∧ joining5.line.state ≠ .duplicate ∧
      joining5.line.transmission = some ⟨.hello, .hello, 7, some ⟨5, .hello 318 1⟩⟩ := by decide +kernel

theorem hears_of_ready (s : State) (n : Nat) (h : s.held = false) (hs : s.station = .ready) (hl : s.line.state ≠ .off)
    (ht : s.line.transmission = none) (hn : n ≠ s.own) : s.Hears n := ⟨h, .inl hs, hl, ht, hn⟩

def away138 : State := station 3 711 [{ home 138 .away .zero with lastSeen := some ⟨42550, 313, 18⟩ }] LotEntry.cleared

theorem test_meets_HandoverMakesItsRecipientOwner :
    away138.Hears 5 ∧ away138.own = 3 ∧ [5, 31].length ≤ 31 ∧
      away138.planLot 138 = some ⟨17, 2, 1080, ⟨false, true, true⟩, ⟨800000, 4000, 150⟩, 3⟩ ∧
      away138.findHome 138 = some { home 138 .away .zero with lastSeen := some ⟨42550, 313, 18⟩ } ∧
      (station 5 704 [home137] (entryFor 138 .asking none)).Hears 3 ∧
      (station 5 704 [home137] (entryFor 138 .asking none)).findHome 138 = none ∧
      (station 5 704 [home137] (entryFor 138 .asking none)).entryOf 138 = some 0 ∧
      (entryFor 138 .asking none).waiting = [] :=
  ⟨hears_of_ready _ _ rfl rfl (by decide) rfl (by decide), rfl, by decide, by decide +kernel, by decide +kernel,
    hears_of_ready _ _ rfl rfl (by decide) rfl (by decide), by decide +kernel, by decide +kernel, rfl⟩

def handing : HomeRecord :=
  { home 138 .atHome ⟨60000, 400, 20⟩ with queue := [5], handingOver := true, frame := some (frame .handover 5) }

def handing3 : State :=
  sending (station 3 704 [handing] LotEntry.cleared) (.home 138) (frame .handover 5) (.handover cargo)

def handing5 : State :=
  sending (station 5 704 [home137] { entryFor 138 .owned (some ⟨56550, 373, 19⟩) with frame := some (frame .handover 3) })
    (.entry 0) (frame .handover 3) (.handover ⟨3, 138, ⟨56550, 373, 19⟩, 0, []⟩)

theorem test_meets_HandoverLeavesItsSender :
    handing3.line.state = .active ∧ (handing3.planLot 138).isSome = true ∧
      handing3.line.transmission = some ⟨.home 138, .handover, 7, some ⟨handing3.own, .handover cargo⟩⟩ ∧
      handing3.findHome 138 = some handing ∧ handing.waiting = [] ∧
      handing5.line.transmission =
        some ⟨.entry 0, .handover, 7, some ⟨handing5.own, .handover ⟨3, 138, ⟨56550, 373, 19⟩, 0, []⟩⟩⟩ ∧
      handing5.findHome 138 = none ∧ handing5.entryOf 138 = some 0 := by decide +kernel

def noticing : State :=
  sending (station 8 711 [] { entryFor 138 .ownedModified (some ⟨33550, 218, 17⟩) with frame := some (frame .notice 0) })
    (.entry 0) (frame .notice 0) (.notice 138 ⟨33550, 218, 17⟩)

theorem test_meets_PublishedFiguresAreHeard :
    away138.Hears 8 ∧ cargo.recipient ≠ away138.own ∧ (away138.planLot 138).isSome = true ∧ away138.findHome 138 ≠ none ∧
      noticing.line.state = .active ∧ noticing.entryOf 138 = some 0 ∧ noticing.minute < 1080 ∧
      noticing.line.transmission = some ⟨.entry 0, .notice, 7, some ⟨noticing.own, .notice 138 ⟨33550, 218, 17⟩⟩⟩ :=
  ⟨hears_of_ready _ _ rfl rfl (by decide) rfl (by decide), by decide, by decide +kernel, by decide +kernel, rfl,
    by decide +kernel, by decide, rfl⟩

def reclaiming : HomeRecord := { home 138 .askingHome .zero with lastSeen := some ⟨33550, 218, 17⟩, frame := some (frame .reclaim 0) }

def reclaiming3 : State :=
  sending (station 3 736 [reclaiming] LotEntry.cleared) (.home 138) (frame .reclaim 0) (.reclaim 138 ⟨33550, 218, 17⟩)

theorem test_meets_ReclaimTakesTheLotBack :
    (station 5 736 [home137] (entryFor 138 .owned (some ⟨33550, 218, 17⟩))).Hears 3 ∧
      (station 5 736 [home137] (entryFor 138 .owned (some ⟨33550, 218, 17⟩))).entryOf 138 = some 0 ∧
      reclaiming3.findHome 138 = some reclaiming ∧ reclaiming.waiting = [] ∧ reclaiming3.minute < 1080 ∧
      reclaiming3.line.transmission =
        some ⟨.home 138, .reclaim, 7, some ⟨reclaiming3.own, .reclaim 138 ⟨33550, 218, 17⟩⟩⟩ :=
  ⟨hears_of_ready _ _ rfl rfl (by decide) rfl (by decide), by decide +kernel, by decide +kernel, rfl, by decide, rfl⟩

theorem test_meets_TallyEndsTheLot :
    away138.Hears 8 ∧ away138.incomingOf 138 = none ∧ away138.entryOf 138 = none ∧
      (station 5 704 [home137] (entryFor 138 .copy (some ⟨1, 1, 1⟩))).Hears 3 ∧
      (station 5 704 [home137] (entryFor 138 .copy (some ⟨1, 1, 1⟩))).entryOf 138 = some 0 ∧
      (station 5 704 [home137] (entryFor 138 .copy (some ⟨1, 1, 1⟩))).incomingOf 138 = none :=
  ⟨hears_of_ready _ _ rfl rfl (by decide) rfl (by decide), by decide +kernel, by decide +kernel,
    hears_of_ready _ _ rfl rfl (by decide) rfl (by decide), by decide +kernel, by decide +kernel⟩

def fetching : LotEntry := { entryFor 138 .asking none with frame := some (frame .fetch 0) }

def fetching5 : State := sending (station 5 704 [home137] fetching) (.entry 0) (frame .fetch 0) (.fetch 138)

theorem test_meets_FetchAndStallReachTheRecord :
    (station 3 700 [home 138 .atHome ⟨60000, 400, 20⟩] LotEntry.cleared).Hears 5 ∧ away138.Hears 5 ∧
      (station 5 704 [home137] (entryFor 138 .owned (some ⟨1, 1, 1⟩))).Hears 3 ∧
      (entryFor 138 .owned (some ⟨1, 1, 1⟩)).frame = none ∧ fetching5.table[0]? = some fetching ∧
      fetching5.line.transmission = some ⟨.entry 0, .fetch, 7, some ⟨fetching5.own, .fetch 138⟩⟩ :=
  ⟨hears_of_ready _ _ rfl rfl (by decide) rfl (by decide), hears_of_ready _ _ rfl rfl (by decide) rfl (by decide),
    hears_of_ready _ _ rfl rfl (by decide) rfl (by decide), rfl, by decide +kernel, rfl⟩

/-! ## Witnesses clause by clause: requests, lots and frames that meet the clauses not met above -/

/-- Two parcels SEEKING in slots 0 and 1, the NoDispatch mask clear. -/
def sought (s : State) : State :=
  withSlots { s with configuration := some { s.config with noDispatchMask := false } } [seekingSlot, seekingSlot] 2 2 0

/-- Requests for lot 138 that fit and do not fit 60,000 g. -/
def small (slot : Nat) : Request := request slot 138 ⟨3450, 27, 1⟩ []
def bulky (slot : Nat) : Request := request slot 138 ⟨60001, 27, 1⟩ []

theorem mayServe_sought (s : State) (qs : List Request) (hn : (qs.flatMap (·.members)).Nodup)
    (hm : ∀ q ∈ qs, ∀ i ∈ q.members, i = 0 ∨ i = 1) : (sought s).MayServe qs := by
  refine ⟨hn, fun q hq i hi => ?_⟩
  obtain rfl | rfl := hm q hq i hi <;> exact ⟨rfl, _, rfl⟩

theorem mayEnd_sought (s : State) (qs : List Request) (hn : (qs.flatMap (·.members)).Nodup)
    (hm : ∀ q ∈ qs, ∀ i ∈ q.members, i = 0 ∨ i = 1) (hd : ∀ q ∈ qs, q.candidates.drop (q.next + 1) = []) :
    (sought s).MayEnd qs := ⟨mayServe_sought s qs hn hm, .inr ⟨rfl, hd⟩⟩

theorem mayArrive_sought (s : State) (d : Departure) (f : Figures) (qs : List Request) (n : Nat)
    (hn : (qs.flatMap (·.members)).Nodup) (hm : ∀ q ∈ qs, ∀ i ∈ q.members, i = 0 ∨ i = 1) (hs : s.sequence = some n)
    (hl : n + (((sought s).arrival d f qs).1.flatMap (·.members)).length ≤ 100000)
    (hd : ∀ q ∈ ((sought s).arrival d f qs).2.1, q.candidates.drop (q.next + 1) = []) : (sought s).MayArrive d f qs n :=
  ⟨mayServe_sought s qs hn hm, hs, hl, .inr ⟨rfl, hd⟩⟩

/-- The first entry is the least when no other has a lower key. -/
theorem leastOf_first (s : State) (P : LotEntry → Prop) (key : LotEntry → Nat) (e : LotEntry) (rest : List LotEntry)
    (ht : s.table = e :: rest) (hq : P e) (hk : ∀ x ∈ s.table, key e ≤ key x) : s.LeastOf P key 0 e := by
  refine ⟨by rw [ht]; rfl, hq, fun k x hx _ => ?_⟩
  have := hk x (List.mem_of_getElem? hx)
  omega

def full (s : State) (e : LotEntry) : State := { s with table := List.replicate 48 e }

theorem not_in_full (s : State) (e : LotEntry) (P : LotEntry → Prop) (h : ¬ P e) : ∀ x ∈ (full s e).table, ¬ P x :=
  fun x hx => by rw [(List.mem_replicate.1 hx).2]; exact h

def departure138 : Departure := ⟨17, 2, 1080, ⟨false, true, true⟩, ⟨800000, 4000, 150⟩, 3⟩

theorem test_meets_RatedComponentsAddUp_stages :
    (hall .halfUp).zones[412]? = some ⟨some 4, 17, false⟩ ∧ (hall .halfUp).zones[903]? = some ⟨none, 0, false⟩ ∧
      standard.Charges 4 5000 1200 ∧ standard.Charges 4 30001 4900 ∧ priority.Charges 4 579348 72027765 ∧
      999999900 < 72027765 * 100 ∧ (Screen.places false [⟨3, digits [4, 1, 2]⟩]).restricts to412 = true ∧
      (Screen.places false []).restricts to412 = false :=
  ⟨by decide +kernel, by decide +kernel,
    .inl ⟨0, ⟨5000, List.replicate 10 1200⟩, rfl, by decide, fun j _ h => absurd h (by omega), rfl⟩,
    .inr ⟨⟨30000, List.replicate 10 4800⟩, rfl, by decide, by decide⟩,
    .inr ⟨⟨30000, List.replicate 10 4800⟩, rfl, by decide, by decide⟩, by decide, by decide +kernel, by decide +kernel⟩

/-- Header bytes of edition `e`, mode HALF-UP, days 1 to 90, first section at 16. -/
def headed (e : Nat) : Flash :=
  cellsAt 0 ([0x43, 0x56, 0x32, 0x54] ++ toBytes 2 e ++ [0] ++ toBytes 2 1 ++ toBytes 2 90 ++ toBytes 2 16 ++ [0, 0, 0])

theorem test_meets_RequiredKindsInOrder_header :
    (∀ k < 13, (readFlash [] k).toNat = 0xFF) ∧ (readFlash (cellsAt 0 [0x44]) 0).toNat = 0x44 ∧
      (readFlash (headed 0) 4).toNat * 256 + (readFlash (headed 0) 5).toNat = 0 ∧
      (readFlash (headed 318) 4).toNat * 256 + (readFlash (headed 318) 5).toNat = 318 ∧ loading4.config.expectedEdition = 0 ∧
      loading4.config.day = 45 ∧ loadImage loading4.config (cellsAt 0 [0x44]) = .error .badMarker ∧
      loadImage loading4.config (headed 0) = .error .badHeader ∧
      loadImage { loading4.config with expectedEdition := 317 } (headed 318) = .error .edition := by decide +kernel

/-- Seventeen empty sections in a row: the sixteenth names a seventeenth that is in bounds. -/
def longChain : Flash := (List.range 17).flatMap (fun i => sectionAt (16 + 8 * i) 9 (24 + 8 * i) 0 [] 0)

theorem test_meets_WalkMovesForward_ends :
    (walk longChain 16 16).length = 16 ∧ (walk longChain 16 16)[15]? = some ⟨136, 9, 0, 144, 0⟩ ∧
      (readSection longChain 144).length = 0 ∧ walk longChain 16 15 = [] ∧
      16 + 8 + (readSection (image 90) 16).length ≤ 65536 := by decide +kernel

/-! ### Tries -/

/-- A parcel alone at station 5; its lot at home has ended, so that it tries lot 138 of home 3 at the entry. -/
def trying (e : LotEntry) : State := withSlots (station 5 700 [home 137 .ended .zero] e) [queued worked] 1 0 1

theorem passes_ended (e : LotEntry) (f : Figures) : (trying e).HomePasses f ⟨137, 780⟩ :=
  ⟨rfl, home 137 .ended .zero, rfl, .inl rfl⟩

def owned138 (f : Figures) : LotEntry := entryFor 138 .owned (some f)

theorem test_meets_SingleLabelledFromALotAtHome_home :
    (∀ h : HomeRecord, h.lot = 137 →
      ({ (alone worked) with home := [h] } : State).AboutToTake (hall .halfUp) 0 (.parcel worked) ∧
      ({ (alone worked) with home := [h] } : State).OneHome 137 h) ∧
    (∀ x ∈ home137.waiting, x.order ≤ (alone worked).ring.takings) ∧
    FitsIn ⟨3450, 27, 1⟩ home137.figures ∧ (alone worked).sequence = some 412 ∧
    ({ home137 with queue := [3] }).queue ≠ [] ∧ (home 137 .unknown .zero).frame = none ∧
    (∀ g, (home 137 .away .zero).lastSeen = some g → FitsIn ⟨3450, 27, 1⟩ g) ∧
    (∃ g, ({ home 137 .away .zero with frame := some (frame .reclaim 0) }).frame = some g ∧ g.kind = .reclaim) := by
  refine ⟨fun h hl => ⟨⟨rfl, rfl, rfl, rfl, by show 0 < 1; decide, rfl, rfl⟩, ?_, ?_⟩, by decide, by unfold FitsIn; decide,
    rfl, by decide, rfl, fun g hg => by simp [home] at hg, ⟨_, rfl, rfl⟩⟩
  · simp [State.findHome, hl]
  · intro x hx _; exact List.mem_singleton.1 hx

theorem test_meets_SingleLabelledFromALotAtHome_entry :
    (∀ e, (trying e).AboutToTake (hall .halfUp) 0 (.parcel worked) ∧ (trying e).HomePasses ⟨3450, 27, 1⟩ ⟨137, 780⟩ ∧
      (trying e).planLot 138 = some departure138) ∧
    candidatesOf (hall .halfUp) 700 17 1 = [⟨137, 780⟩] ++ [⟨138, 1080⟩] ∧
    (∀ e : LotEntry, e.lot = some 138 → e.incoming = none → (trying e).entryOf 138 = some 0) ∧
    ¬ (trying LotEntry.cleared).Unreachable (entryFor 138 .free none) ∧
    (∃ g, ({ entryFor 138 .copy none with frame := some (frame .stall 0) }).frame = some g ∧ g.kind = .stall) ∧
    (∀ g, (entryFor 138 .copy (some ⟨3450, 27, 1⟩)).figures = some g → FitsIn ⟨3450, 27, 1⟩ g) ∧
    ({ owned138 .zero with queue := [3] }).queue ≠ [] ∧ FitsIn ⟨3450, 27, 1⟩ ⟨3450, 27, 1⟩ ∧
    (∀ q ∈ (owned138 .zero).waiting, q.order ≤ 0) := by
  refine ⟨fun e => ⟨⟨rfl, rfl, rfl, rfl, by show 0 < 1; decide, rfl, rfl⟩, passes_ended e _, by
      show (trying LotEntry.cleared).planLot 138 = _; decide +kernel⟩, by decide +kernel, fun e h hi => ?_,
    fun ⟨u, h, _⟩ => by simp [entryFor, LotEntry.cleared] at h, ⟨_, rfl, rfl⟩, fun g hg => ?_, by decide,
    by unfold FitsIn; decide, by decide⟩
  · simp [State.entryOf, trying, withSlots, station, List.findIdx?_cons, h]
  · obtain rfl : (⟨3450, 27, 1⟩ : Figures) = g := Option.some.inj hg
    unfold FitsIn; decide

/-- Every entry owns lot 136 and is least: the castout clause. Station 4, its home, is present. -/
def castable : State :=
  let s := full (trying LotEntry.cleared) (entryFor 136 .owned (some ⟨1000, 10, 5⟩))
  { s with line := { s.line with presence := s.line.presence.set 4 ⟨true, some 5⟩ } }

theorem test_meets_SingleLabelledFromALotAtHome_made :
    (trying LotEntry.cleared).entryOf 138 = none ∧ (trying LotEntry.cleared).incomingOf 138 = none ∧
    (trying LotEntry.cleared).LeastOf (trying LotEntry.cleared).MayReplace (·.lastUse) 0 LotEntry.cleared ∧
    castable.AboutToTake (hall .halfUp) 0 (.parcel worked) ∧ castable.entryOf 138 = none ∧ castable.incomingOf 138 = none ∧
    (∀ x ∈ castable.table, ¬ castable.MayReplace x) ∧
    castable.LeastOf castable.MayCastOut (·.lastDebit) 0 (entryFor 136 .owned (some ⟨1000, 10, 5⟩)) ∧
    (trying castEntry).entryOf 138 = none ∧ (trying castEntry).incomingOf 138 = some 0 ∧ 1 ≤ 1 :=
  ⟨by decide +kernel, by decide +kernel,
    leastOf_first _ _ _ _ _ rfl ⟨.inl rfl, rfl, rfl, fun ⟨u, h, _⟩ => by simp [LotEntry.cleared] at h⟩ (by decide +kernel),
    ⟨rfl, rfl, rfl, rfl, by show 0 < 1; decide, rfl, rfl⟩, by decide +kernel, by decide +kernel,
    not_in_full (trying LotEntry.cleared) _ castable.MayReplace (fun h => by simpa [entryFor] using h.1),
    leastOf_first _ _ _ _ (List.replicate 47 _) rfl
      ⟨.inl rfl, rfl, rfl, rfl, rfl, .inl rfl, 136, rfl, by decide +kernel⟩ (by decide +kernel),
    by decide +kernel, by decide +kernel, by decide⟩

/-- ECONOMY admits lot 137 alone on this route; the mask for NoDispatch clear. -/
def unmasked (s : State) : State := { s with configuration := some { s.config with noDispatchMask := false } }

def homeOnly (h : HomeRecord) : State :=
  withSlots (station 5 700 [h] LotEntry.cleared) [queued { worked with service := 0 }] 1 0 1

theorem test_meets_SingleWithoutCandidate_passes :
    candidatesOf (hall .halfUp) 700 17 0 = [⟨137, 780⟩] ∧ candidatesOf (hall .halfUp) 779 17 2 = [⟨137, 780⟩, ⟨138, 1080⟩] ∧
    candidatesOf (hall .halfUp) 780 17 2 = [⟨138, 1080⟩] ∧
    (homeOnly (home 137 .ended .zero)).HomePasses ⟨3450, 27, 1⟩ ⟨137, 780⟩ ∧
    (homeOnly (home 137 .atHome ⟨3449, 27, 1⟩)).HomePasses ⟨3450, 27, 1⟩ ⟨137, 780⟩ ∧
    (homeOnly { home 137 .away .zero with lastSeen := some ⟨3450, 26, 1⟩ }).HomePasses ⟨3450, 27, 1⟩ ⟨137, 780⟩ :=
  ⟨by decide +kernel, by decide +kernel, by decide +kernel, ⟨rfl, _, rfl, .inl rfl⟩,
    ⟨rfl, _, rfl, .inr (.inr ⟨rfl, rfl, rfl, by unfold FitsIn; decide⟩)⟩,
    ⟨rfl, _, rfl, .inr (.inl ⟨rfl, _, rfl, by unfold FitsIn; decide⟩)⟩⟩

theorem test_meets_SingleWithoutCandidate_entry :
    (∀ e, (unmasked (trying e)).AboutToTake (hall .halfUp) 0 (.parcel worked) ∧
      (unmasked (trying e)).config.noDispatchMask = false ∧ (unmasked (trying e)).HomePasses ⟨3450, 27, 1⟩ ⟨137, 780⟩) ∧
    (unmasked (trying { owned138 .zero with castout := true })).entryOf 138 = some 0 ∧
    (unmasked (trying LotEntry.cleared)).Unreachable { entryFor 138 .free none with unreachable := some 1 } ∧
    ¬ FitsIn ⟨3450, 27, 1⟩ ⟨3450, 27, 0⟩ ∧
    (unmasked (full (trying LotEntry.cleared) { owned138 .zero with lot := some 136, handingOver := true })).entryOf 138 = none ∧
    (∀ x ∈ (full (trying LotEntry.cleared) { owned138 .zero with lot := some 136, handingOver := true }).table,
      ¬ (unmasked (trying LotEntry.cleared)).MayCastOut x) :=
  ⟨fun e => ⟨⟨rfl, rfl, rfl, rfl, by show 0 < 1; decide, rfl, rfl⟩, rfl, rfl, _, rfl, .inl rfl⟩, by decide +kernel,
    ⟨1, rfl, by decide⟩, by unfold FitsIn; decide, by decide +kernel,
    not_in_full _ _ (unmasked (trying LotEntry.cleared)).MayCastOut (fun h => by simpa using h.2.2.2.2.1)⟩

/-- The consignment of 11.1 closed by its LAST piece, rated whole or refused; the sums are at the lot's room exactly in
pieces. -/
theorem test_meets_PiecesAreGrouped_last :
    (opened last).AboutToTake (hall .halfUp) 3 (.parcel last) ∧
    ([1, 2] ++ [3]).map (fun j => ((opened last).slot j).record) =
      [first, middle, last].map (fun x => some (.parcel x)) ∧
    (ratePieces (hall .halfUp) (.places false []) ⟨true, true⟩ 3 [first, middle, last]).2.2 = true ∧
    (ratePieces (hall .halfUp) (.places false []) ⟨true, true⟩ 3 [first, middle, { last with weight := 0 }]).2.2 = false ∧
    candidatesOf (hall .halfUp) 700 17 1 = [⟨137, 780⟩, ⟨138, 1080⟩] ∧ candidatesOf (hall .halfUp) 1080 17 1 = [] ∧
    (opened last).planLot 137 = some ⟨17, 1, 780, ⟨true, true, true⟩, ⟨1500000, 6000, 300⟩, 5⟩ ∧
    (opened last).OneHome 137 home137 ∧ FitsIn ⟨3450 + 3450 + 3450, 27 + 27 + 27, 3⟩ home137.figures ∧
    (unmasked { (opened last) with clock := some ⟨1080, 0⟩ }).config.noDispatchMask = false :=
  ⟨aboutToTake_opened _, rfl, by decide +kernel, by decide +kernel, by decide +kernel, by decide +kernel, by decide +kernel,
    ⟨rfl, fun x hx _ => List.mem_singleton.1 hx⟩, by unfold FitsIn; decide, rfl⟩

/-- A record that does not belong to the open consignment: a parcel alone, and a FIRST piece (R62). -/
theorem test_meets_PiecesAreGrouped_interrupted :
    (opened worked).AboutToTake (hall .halfUp) 3 (.parcel worked) ∧ (opened worked).RingFits ∧
    (opened first).AboutToTake (hall .halfUp) 3 (.parcel first) ∧ (opened first).RingFits ∧ worked.pieceMark = 0 ∧
    (after .ratePositionActs (opened first)).ring.consignment = some ⟨[3], 1, to412⟩ :=
  ⟨aboutToTake_opened _, opened_fits _, aboutToTake_opened _, opened_fits _, rfl, by decide +kernel⟩

/-! ### Time -/

def cut5 (e : LotEntry) : State := sought (station 5 1079 [home137] e)

theorem test_meets_ClockAdvancesToCutOffs_waiting :
    (hall .halfUp).plan.filter (fun d => d.cutOff == 1080) = [departure138] ∧
    (cut5 (owned138 ⟨1, 1, 1⟩)).planLot 138 = some departure138 ∧
    (cut5 (owned138 ⟨1, 1, 1⟩)).findHome 138 = none ∧ (cut5 (owned138 ⟨1, 1, 1⟩)).entryOf 138 = some 0 ∧
    (cut5 { entryFor 138 .asking none with waiting := [small 0, small 1] }).MayEnd [small 0, small 1] ∧
    (sought (station 3 1079 [{ home 138 .askingHome .zero with waiting := [small 0] }] LotEntry.cleared)).MayEnd [small 0] ∧
    (cut5 castEntry).incomingOf 138 = some 0 ∧ (cut5 castEntry).entryOf 138 = none ∧
    (cut5 castEntry).MayEnd [request 0 138 ⟨3450, 27, 1⟩ []] :=
  ⟨by decide +kernel, by decide +kernel, by decide +kernel, by decide +kernel,
    mayEnd_sought _ _ (by decide) (by decide) (by decide), mayEnd_sought _ _ (by decide) (by decide) (by decide),
    by decide +kernel, by decide +kernel, mayEnd_sought _ _ (by decide) (by decide) (by decide)⟩

theorem test_meets_TimersExpire_waiting :
    (sought (station 5 731 [] { asker 2 with waiting := [small 1] })).MayEnd [small 1] ∧
    ({ station 5 731 [] (asker 0) with station := .leaving }).table[0]? = some (asker 0) ∧
    (asker 0).figures.isSome = true ∧ ({ asker 0 with figures := none }).waiting = [] ∧
    (∃ g, ({ entryFor 138 .ownedModified (some ⟨1, 1, 1⟩) with frame := some (frame .notice 0) }).frame = some g ∧
      g.kind = .notice) :=
  ⟨mayEnd_sought _ _ (by decide) (by decide) (by decide), by decide +kernel, by decide, by decide, ⟨_, rfl, rfl⟩⟩

/-! ### Frames -/

/-- Offered with nothing on the line; then a home record's frame past its start, still pending, or replaced. -/
theorem test_meets_FramesOfferedAndFormed_home :
    (station 3 704 [handing] LotEntry.cleared).line.transmission = none ∧
    (station 3 704 [handing] LotEntry.cleared).pendingLotFrames ≠ [] ∧
    (station 3 704 [handing] LotEntry.cleared).findHome 138 = some handing ∧
    (station 3 704 [handing] LotEntry.cleared).pendingFrame (.home 138) = some (frame .handover 5) ∧
    (frame .handover 5).kind ≠ .tally ∧
    (station 3 704 [reclaiming] LotEntry.cleared).pendingFrame (.home 138) = some (frame .reclaim 0) ∧
    reclaiming.lastSeen = some ⟨33550, 218, 17⟩ ∧ (home 138 .askingHome .zero).lastSeen = none ∧
    offering.line.transmission.isSome = true := by decide +kernel

theorem test_meets_DuplicateNumberFound_kinds :
    at5.line.state ≠ .off ∧ at5.line.state ≠ .duplicate ∧ at5.line.transmission = none ∧ 3 ≠ at5.own ∧
    duplicate5.line.state = .duplicate ∧ duplicate5.line.transmission = none ∧
    (⟨5, .hello 318 1⟩ : HallFrame).wf ∧ (⟨5, .hello 317 1⟩ : HallFrame).wf ∧
    (⟨5, .notice 138 ⟨1, 1, 1⟩⟩ : HallFrame).wf ∧ (⟨5, .stall 138⟩ : HallFrame).wf ∧
    (⟨5, .fetch 138⟩ : HallFrame).wf ∧ (⟨5, .tally 138 ⟨1, 1, 1⟩⟩ : HallFrame).wf ∧
    (⟨5, .reclaim 138 ⟨1, 1, 1⟩⟩ : HallFrame).wf ∧ (⟨5, .handover cargo⟩ : HallFrame).wf ∧
    (⟨5, .unknown []⟩ : HallFrame).wf ∧ at5.own = 5 ∧ at5.edition = 318 := by decide +kernel

/-! ### Accepted lot frames -/

theorem test_meets_HandoverMakesItsRecipientOwner_waiting :
    let r := { home 138 .askingHome .zero with waiting := [small 0, bulky 1] }
    let e := { entryFor 138 .asking none with waiting := [small 0, bulky 1] }
    let f : Figures := ⟨60000, 400, 20⟩
    (sought (station 3 704 [r] LotEntry.cleared)).MayArrive departure138 f r.waiting 412 ∧
    (sought (station 3 704 [r] LotEntry.cleared)).OneHome 138 r ∧
    (sought (station 5 704 [home137] e)).MayArrive departure138 f e.waiting 412 ∧
    ((sought (station 5 704 [home137] e)).arrival departure138 f e.waiting).1 = [small 0] ∧
    ((sought (station 5 704 [home137] e)).arrival departure138 f e.waiting).2.1 = [bulky 1] ∧
    ((sought (station 5 1080 [home137] e)).arrival departure138 f e.waiting).1 = [] :=
  ⟨mayArrive_sought _ _ _ _ _ (by decide) (by decide) rfl (by decide +kernel) (by decide +kernel),
    ⟨rfl, fun x hx _ => List.mem_singleton.1 hx⟩,
    mayArrive_sought _ _ _ _ _ (by decide) (by decide) rfl (by decide +kernel) (by decide +kernel), by decide +kernel,
    by decide +kernel, by decide +kernel⟩

/-- An entry to make, one to take for a return, none at all; and the incoming lot of a castout. -/
def stalled : LotEntry := { LotEntry.cleared with frame := some (frame .stall 0) }
def returning : State := full at5 stalled
def cannotHold : State := full at5 (entryFor 136 .owned (some ⟨1, 1, 1⟩))
def incomer : LotEntry := { castEntry with incoming := some ⟨138, [small 0]⟩ }
def arriving : State := sought (station 5 704 [home137] LotEntry.cleared)
def arrivingIn : State := { arriving with table := LotEntry.cleared :: incomer :: List.replicate 46 LotEntry.cleared }

theorem test_meets_HandoverMakesItsRecipientOwner_no_entry :
    arriving.findHome 138 = none ∧ arriving.entryOf 138 = none ∧ arriving.incomingOf 138 = none ∧
    arriving.LeastOf arriving.MayReplace (·.lastUse) 0 LotEntry.cleared ∧
    arrivingIn.LeastOf arrivingIn.MayReplace (·.lastUse) 0 LotEntry.cleared ∧ arrivingIn.entryOf 138 = none ∧
    arrivingIn.incomingOf 138 = some 1 ∧ arriving.MayArrive departure138 ⟨60000, 400, 20⟩ [small 0] 412 ∧
    returning.entryOf 138 = none ∧ returning.incomingOf 138 = none ∧ (∀ x ∈ returning.table, ¬ returning.MayReplace x) ∧
    returning.LeastOf MayReturn (·.lastUse) 0 stalled ∧ cannotHold.entryOf 138 = none ∧
    (∀ x ∈ cannotHold.table, ¬ MayReturn x) ∧ ({ returning with station := .leaving }).station ≠ .ready :=
  ⟨by decide +kernel, by decide +kernel, by decide +kernel,
    leastOf_first _ _ _ _ _ rfl ⟨.inl rfl, rfl, rfl, fun ⟨u, h, _⟩ => by simp [LotEntry.cleared] at h⟩ (by decide +kernel),
    leastOf_first _ _ _ _ _ rfl ⟨.inl rfl, rfl, rfl, fun ⟨u, h, _⟩ => by simp [LotEntry.cleared] at h⟩ (by decide +kernel),
    by decide +kernel, by decide +kernel,
    mayArrive_sought _ _ _ _ _ (by decide) (by decide) rfl (by decide +kernel) (by decide +kernel), by decide +kernel,
    by decide +kernel, not_in_full _ _ returning.MayReplace (fun h => by simpa [stalled] using h.2.2.1),
    leastOf_first _ _ _ _ (List.replicate 47 _) rfl ⟨.inl rfl, rfl⟩ (by decide +kernel), by decide +kernel,
    not_in_full _ _ MayReturn (fun h => by simpa [entryFor] using h.1), by decide⟩

def handingWaiting : HomeRecord := { handing with waiting := [small 0, bulky 1] }

def handing3Waiting : State :=
  sought (sending (station 3 704 [handingWaiting] LotEntry.cleared) (.home 138) (frame .handover 5) (.handover cargo))

/-- Lot 136 leaves station 5 as a castout, a request waiting on the incoming lot or none. -/
def castingOut (qs : List Request) : State :=
  sought (sending (station 5 500 [home137] { castEntry with incoming := some ⟨138, qs⟩ }) (.entry 0) (frame .handover 4)
    (.handover ⟨4, 136, ⟨1000, 10, 5⟩, 0, []⟩))

def handing5Waiting : LotEntry := { owned138 ⟨60000, 400, 20⟩ with frame := some (frame .handover 3), waiting := [small 0, bulky 1] }

def handing5With : State :=
  sought (sending (station 5 704 [home137] handing5Waiting) (.entry 0) (frame .handover 3)
    (.handover ⟨3, 138, ⟨60000, 400, 20⟩, 0, []⟩))

theorem test_meets_HandoverLeavesItsSender_waiting :
    handing3Waiting.findHome 138 = some handingWaiting ∧ handing3Waiting.line.state = .active ∧
    handing3Waiting.line.transmission = some ⟨.home 138, .handover, 7, some ⟨handing3Waiting.own, .handover cargo⟩⟩ ∧
    handing3Waiting.MayEnd [bulky 1] ∧
    (castingOut []).entryOf 136 = some 0 ∧ (castingOut []).findHome 136 = none ∧
    (castingOut [small 0]).line.transmission =
      some ⟨.entry 0, .handover, 7, some ⟨5, .handover ⟨4, 136, ⟨1000, 10, 5⟩, 0, []⟩⟩⟩ ∧
    (castingOut [small 0]).entryOf 136 = some 0 ∧
    handing5With.line.transmission =
      some ⟨.entry 0, .handover, 7, some ⟨handing5With.own, .handover ⟨3, 138, ⟨60000, 400, 20⟩, 0, []⟩⟩⟩ ∧
    handing5With.entryOf 138 = some 0 ∧ handing5Waiting.incoming = none ∧ handing5With.MayEnd [bulky 1] ∧
    ({ handing5 with station := .leaving }).station = .leaving :=
  ⟨by decide +kernel, rfl, rfl, mayEnd_sought _ _ (by decide) (by decide) (by decide), by decide +kernel, by decide +kernel,
    rfl, by decide +kernel, rfl, by decide +kernel, rfl, mayEnd_sought _ _ (by decide) (by decide) (by decide), rfl⟩

theorem test_meets_ReclaimTakesTheLotBack_waiting :
    let e := { owned138 ⟨60000, 400, 20⟩ with waiting := [small 0, bulky 1] }
    let r := { reclaiming with waiting := [small 0, bulky 1] }
    let s := sought (sending (station 3 736 [r] LotEntry.cleared) (.home 138) (frame .reclaim 0)
      (.reclaim 138 ⟨60000, 400, 20⟩))
    (sought (station 5 736 [home137] e)).Hears 3 ∧ (sought (station 5 736 [home137] e)).entryOf 138 = some 0 ∧
    (sought (station 5 736 [home137] e)).MayEnd [bulky 1] ∧ s.OneHome 138 r ∧
    s.line.transmission = some ⟨.home 138, .reclaim, 7, some ⟨s.own, .reclaim 138 ⟨60000, 400, 20⟩⟩⟩ ∧
    s.MayArrive departure138 ⟨60000, 400, 20⟩ r.waiting 412 ∧
    (station 5 500 [home137] castEntry).Hears 4 ∧ (station 5 500 [home137] castEntry).entryOf 136 = some 0 ∧
    (entryFor 138 .asking none).frame = none :=
  ⟨hears_of_ready _ _ rfl rfl (by decide) rfl (by decide), by decide +kernel,
    mayEnd_sought _ _ (by decide) (by decide) (by decide), ⟨rfl, fun x hx _ => List.mem_singleton.1 hx⟩, rfl,
    mayArrive_sought _ _ _ _ _ (by decide) (by decide) rfl (by decide +kernel) (by decide +kernel),
    hears_of_ready _ _ rfl rfl (by decide) rfl (by decide), by decide +kernel, rfl⟩

def tallying (e : LotEntry) : State :=
  sending (station 5 1080 [home137] e) (.entry 0) (frame .tally 0) (.tally 138 ⟨1, 1, 1⟩)

def tallyingHome : HomeRecord := { home 138 .atHome ⟨1, 1, 1⟩ with frame := some (frame .tally 0) }

theorem test_meets_TallyEndsTheLot_waiting :
    let e := { entryFor 138 .asking none with waiting := [small 0] }
    let r := { home 138 .askingHome .zero with waiting := [small 0] }
    let s := sending (station 3 1080 [tallyingHome] LotEntry.cleared) (.home 138) (frame .tally 0) (.tally 138 ⟨1, 1, 1⟩)
    (sought (station 5 1080 [home137] e)).Hears 3 ∧ (sought (station 5 1080 [home137] e)).MayEnd [small 0] ∧
    (sought (station 3 1080 [r] LotEntry.cleared)).Hears 8 ∧ (sought (station 3 1080 [r] LotEntry.cleared)).MayEnd [small 0] ∧
    castout5.Hears 3 ∧ (sought castout5).incomingOf 138 = some 0 ∧
    (sought castout5).MayEnd [request 0 138 ⟨3450, 27, 1⟩ []] ∧
    s.OneHome 138 tallyingHome ∧
    s.line.transmission = some ⟨.home 138, .tally, 7, some ⟨s.own, .tally 138 ⟨1, 1, 1⟩⟩⟩ ∧
    (tallying { owned138 ⟨1, 1, 1⟩ with frame := some (frame .tally 0) }).entryOf 138 = some 0 ∧
    (tallying { owned138 ⟨1, 1, 1⟩ with frame := some (frame .tally 0) }).line.transmission =
      some ⟨.entry 0, .tally, 7, some ⟨5, .tally 138 ⟨1, 1, 1⟩⟩⟩ :=
  ⟨hears_of_ready _ _ rfl rfl (by decide) rfl (by decide), mayEnd_sought _ _ (by decide) (by decide) (by decide),
    hears_of_ready _ _ rfl rfl (by decide) rfl (by decide), mayEnd_sought _ _ (by decide) (by decide) (by decide),
    hears_of_ready _ _ rfl rfl (by decide) rfl (by decide), by decide +kernel,
    mayEnd_sought _ _ (by decide) (by decide) (by decide), ⟨rfl, fun x hx _ => List.mem_singleton.1 hx⟩, rfl,
    by decide +kernel, rfl⟩

def fetchingHome : HomeRecord := { home 138 .askingHome .zero with frame := some (frame .fetch 0) }

theorem test_meets_FetchAndStallReachTheRecord_pending :
    let s := sending (station 3 704 [fetchingHome] LotEntry.cleared) (.home 138) (frame .fetch 0) (.fetch 138)
    (∃ g, handing.frame = some g ∧ g.kind = .handover) ∧ 8 ∉ handing.queue ∧
    (station 3 704 [handing] LotEntry.cleared).Hears 8 ∧
    (∃ g, ({ home 138 .away .zero with frame := some (frame .reclaim 0) }).frame = some g ∧ g.kind = .reclaim) ∧
    (∃ g, handing5Waiting.frame = some g ∧ g.kind = .handover) ∧ s.OneHome 138 fetchingHome ∧
    s.line.transmission = some ⟨.home 138, .fetch, 7, some ⟨s.own, .fetch 138⟩⟩ :=
  ⟨⟨_, rfl, rfl⟩, by decide, hears_of_ready _ _ rfl rfl (by decide) rfl (by decide), ⟨_, rfl, rfl⟩, ⟨_, rfl, rfl⟩,
    ⟨rfl, fun x hx _ => List.mem_singleton.1 hx⟩, rfl⟩

/-! ## Witnesses form by form: candidates passed over, requests that move on, LEAVING and SERVING, other line states -/

def departure136 : Departure := ⟨17, 0, 540, ⟨false, true, true⟩, ⟨1000000, 5000, 200⟩, 4⟩
def departure137 : Departure := ⟨17, 1, 780, ⟨true, true, true⟩, ⟨1500000, 6000, 300⟩, 5⟩

/-- Before the first cut-off, lot 136 of home 4 known to be too small: the first candidate passes at its entry, then the
lot at home is tried, or passes too and lot 138 is tried. -/
def passingOver (h : HomeRecord) (n : Nat) : State :=
  withSlots { station 5 500 [h] (entryFor 136 .copy (some ⟨3449, 27, 1⟩)) with sequence := some n } [queued worked] 1 0 1

theorem passes_136 (h : HomeRecord) (n : Nat) : (passingOver h n).Passes ⟨3450, 27, 1⟩ ⟨136, 540⟩ :=
  .inr (.inr ⟨by show (passingOver home137 412).homeOf 136 ≠ (passingOver home137 412).own; decide +kernel, 0,
    entryFor 136 .copy (some ⟨3449, 27, 1⟩), by show (passingOver home137 412).entryOf 136 = some 0; decide +kernel, rfl,
    .inr (.inr (.inl ⟨rfl, ⟨3449, 27, 1⟩, rfl, by unfold FitsIn; decide⟩))⟩)

theorem test_meets_SingleLabelledFromALotAtHome_passes :
    (∀ h n, (passingOver h n).AboutToTake (hall .halfUp) 0 (.parcel worked) ∧
      ((passingOver h n).passing [⟨136, 540⟩]).sequence = some n) ∧
    candidatesOf (hall .halfUp) 500 17 1 = [⟨136, 540⟩] ++ ⟨137, 780⟩ :: [⟨138, 1080⟩] ∧
    (passingOver home137 412).planLot 137 = some departure137 ∧
    ((passingOver home137 412).passing [⟨136, 540⟩]).OneHome 137 home137 ∧
    (((passingOver home137 412).passing [⟨136, 540⟩]).entry 0).lastUse = (passingOver home137 412).ordinal ∧
    (∀ x ∈ [(⟨136, 540⟩ : Candidate), ⟨137, 780⟩],
      (passingOver (home 137 .ended .zero) 412).Passes ⟨3450, 27, 1⟩ x) ∧
    Placed (request 0 138 .zero []) [] [request 0 138 .zero []] :=
  ⟨fun h n => ⟨⟨rfl, rfl, rfl, rfl, by show 0 < 1; decide, rfl, rfl⟩, by
      show ((passingOver home137 n).passing [⟨136, 540⟩]).sequence = some n
      simp [State.passing, passingOver, withSlots, State.entryOf, station, entryFor]; split <;> rfl⟩,
    by decide +kernel, by decide +kernel,
    ⟨by decide +kernel, by decide +kernel⟩, by decide +kernel, fun x hx => by
      obtain rfl | hx := List.mem_cons.1 hx
      · exact passes_136 _ _
      · obtain rfl := List.mem_singleton.1 hx
        exact .inr (.inl ⟨by decide +kernel, home 137 .ended .zero, by decide +kernel, .inl rfl⟩),
    ⟨[], [], rfl, rfl, by simp, by simp⟩⟩

/-- NoNumber at a debit: one number short for a parcel, at home and at an entry, and for a consignment of three. -/
theorem test_meets_SingleLabelledFromALotAtHome_noNumber :
    (passingOver home137 100000).sequence = some 100000 ∧ 100000 < 100000 + [0].length ∧
    FitsIn ⟨3450, 27, 1⟩ home137.figures ∧
    { (trying (owned138 ⟨3450, 27, 1⟩)) with sequence := some 100000 }.AboutToTake (hall .halfUp) 0 (.parcel worked) ∧
    { (opened last) with sequence := some 99998 }.AboutToTake (hall .halfUp) 3 (.parcel last) ∧
    100000 < 99998 + ([1, 2] ++ [3]).length :=
  ⟨rfl, by decide, by unfold FitsIn; decide, ⟨rfl, rfl, rfl, rfl, by show 0 < 1; decide, rfl, rfl⟩,
    ⟨rfl, rfl, rfl, rfl, by show 0 < 1; decide, rfl, rfl⟩, by decide⟩

/-- A request waiting on lot 136, its later candidates lot 137 and lot 138; and one with no later candidate. -/
def roller : Request := ⟨[0], 1, 1, 17, ⟨3450, 27, 1⟩, [⟨136, 540⟩, ⟨137, 780⟩, ⟨138, 1080⟩], 0, some 136⟩
def lastHope : Request := { roller with candidates := [⟨136, 540⟩] }

/-- Two parcels SEEKING, the NoDispatch mask set. -/
def soughtMasked (s : State) : State := withSlots s [seekingSlot, seekingSlot] 2 2 0

theorem mayServe_masked (s : State) : (soughtMasked s).MayServe [roller] ∧ (soughtMasked s).MayServe [lastHope] :=
  ⟨⟨by decide, fun q hq i hi => by
      obtain rfl := List.mem_singleton.1 hq; obtain rfl := List.mem_singleton.1 hi; exact ⟨rfl, _, rfl⟩⟩,
    ⟨by decide, fun q hq i hi => by
      obtain rfl := List.mem_singleton.1 hq; obtain rfl := List.mem_singleton.1 hi; exact ⟨rfl, _, rfl⟩⟩⟩

def asking136 (q : Request) : LotEntry := { entryFor 136 .asking none with waiting := [q] }
def away136 (q : Request) : HomeRecord := { home 136 .askingHome .zero with waiting := [q] }
def hall5 (minute : Nat) (e : LotEntry) : State := soughtMasked (station 5 minute [home137] e)
def hall4 (minute : Nat) (r : HomeRecord) : State := soughtMasked (station 4 minute [r] LotEntry.cleared)

/-- 6.4: at its lot's cut-off a waiting request moves on to the lot at home and is labelled from it; one with no later
candidate is labelled Dispatch pending under the mask. -/
theorem test_clock_rolls_over :
    ((after .clockAdvance (hall5 539 (asking136 roller))).slot 0).label.map (fun l => (l.lot, l.dispatchPending)) =
      some (137, false) ∧
    ((after .clockAdvance (hall5 539 (asking136 lastHope))).slot 0).label.map (fun l => (l.lot, l.dispatchPending)) =
      some (0, true) := by decide +kernel

/-- R144: a LEAVING station whose only owned lot ends is SERVING. -/
theorem test_tally_leaving :
    let s := { station 5 1080 [home137] (owned138 ⟨1, 1, 1⟩) with station := .leaving }
    (after (.tallyAccepted 3 138 ⟨1, 1, 1⟩) s).station = .serving := by decide +kernel

theorem test_meets_ClockAdvancesToCutOffs_movesOn :
    (hall .halfUp).plan.filter (fun d => d.cutOff == 540) = [departure136] ∧
    (hall5 539 (asking136 roller)).planLot 136 = some departure136 ∧
    (hall5 539 (asking136 roller)).findHome 136 = none ∧ (hall5 539 (asking136 roller)).entryOf 136 = some 0 ∧
    (hall5 539 (asking136 roller)).incomingOf 136 = none ∧ (hall5 539 (asking136 roller)).MayServe [roller] ∧
    (hall4 539 (away136 roller)).OneHome 136 (away136 roller) ∧ (hall4 539 (away136 roller)).entryOf 136 = none ∧
    (hall4 539 (away136 roller)).MayServe [roller] ∧
    roller.candidates.drop (roller.next + 1) = [] ++ ⟨137, 780⟩ :: [⟨138, 1080⟩] ∧
    (hall5 539 (asking136 roller)).planLot 137 = some departure137 ∧ lastHope.candidates.drop (lastHope.next + 1) = [] ∧
    (hall5 539 (asking136 lastHope)).config.noDispatchMask = true ∧
    (hall5 539 (asking136 lastHope)).MayServe [lastHope] ∧ (hall5 539 (asking136 lastHope)).sequence = some 412 :=
  ⟨by decide +kernel, by decide +kernel, by decide +kernel, by decide +kernel, by decide +kernel, (mayServe_masked _).1,
    ⟨rfl, fun x hx _ => List.mem_singleton.1 hx⟩, by decide +kernel, (mayServe_masked _).1, rfl, by decide +kernel, rfl,
    rfl, (mayServe_masked _).2, rfl⟩

theorem test_meets_TimersExpire_movesOn :
    let e : LotEntry := { asking136 roller with attempts := 2, fetchTimer := some 0 }
    (hall5 500 e).table[0]? = some e ∧ e.state = .asking ∧ e.fetchTimer.isSome = true ∧ e.frame = none ∧
    e.waiting = [roller] ∧ (hall5 500 e).MayServe [roller] :=
  ⟨rfl, rfl, rfl, rfl, rfl, (mayServe_masked _).1⟩

theorem test_meets_FailedAttemptsLeadToFaulted_states :
    (∀ l, ({ at5 with line := { line with state := l } } : State).held = false ∧
      ({ at5 with line := { line with state := l } } : State).line.transmission = none) ∧
    offering.line.transmission = some ⟨.entry 0, .handover, 7, none⟩ ∧ offering.line.state ≠ .off :=
  ⟨fun _ => ⟨rfl, rfl⟩, rfl, by decide⟩

/-- A LEAVING station that owns no lot any more is SERVING; one that still owns a lot stays LEAVING. -/
def leaving (s : State) : State := { s with station := .leaving }

theorem hears_leaving (s : State) (n : Nat) (h : s.held = false) (hl : s.line.state ≠ .off) (ht : s.line.transmission = none)
    (hn : n ≠ s.own) : (leaving s).Hears n := ⟨h, .inr (.inl rfl), hl, ht, hn⟩

theorem test_meets_leaving_settles :
    (leaving at5).settled at5.table = .serving ∧
    (leaving at5).settled (owned138 .zero :: at5.table) = .leaving ∧ at5.settled at5.table = .ready := by
  refine ⟨if_pos ⟨rfl, by decide +kernel⟩, if_neg fun h => ?_, if_neg fun h => by simp [at5, station] at h⟩
  exact (h.2 (owned138 .zero) (by simp)).1 rfl

/-- The recipient's requests that move on, at home and at an entry with another asker behind it; the same request when the
counter is used up; a LEAVING home. -/
theorem test_meets_HandoverMakesItsRecipientOwner_forms :
    (hall4 500 (away136 roller)).MayServe [roller] ∧ (hall4 500 (away136 roller)).OneHome 136 (away136 roller) ∧
    ¬ FitsIn roller.figures ⟨3449, 27, 1⟩ ∧ FitsIn roller.figures ⟨3450, 27, 1⟩ ∧
    (∀ c ∈ roller.candidates.drop (roller.next + 1), c.lot ≠ 136) ∧ carriedQueue 5 [] [7] ≠ [] ∧
    (hall5 500 (asking136 roller)).entryOf 136 = some 0 ∧ (asking136 roller).incoming = none ∧
    100000 < 100000 + roller.members.length ∧
    (leaving (hall4 500 (away136 roller))).Acts ∧ (leaving (hall4 500 (away136 roller))).MayServe [roller] ∧
    (leaving (hall4 500 (home 136 .away .zero))).OneHome 136 (home 136 .away .zero) ∧
    (leaving cannotHold).Acts :=
  ⟨(mayServe_masked _).1, ⟨rfl, fun x hx _ => List.mem_singleton.1 hx⟩, by unfold FitsIn; decide, by unfold FitsIn; decide,
    by decide, by decide, by decide +kernel, rfl, by decide, .inr (.inl rfl),
    (mayServe_masked (station 4 500 [away136 roller] LotEntry.cleared)).1,
    ⟨rfl, fun x hx _ => List.mem_singleton.1 hx⟩, .inr (.inl rfl)⟩

/-- A sender in SERVING or LEAVING, and one whose single request does not fit the figures it sends. -/
theorem test_meets_HandoverLeavesItsSender_forms :
    let r : HomeRecord := { home 136 .atHome ⟨3449, 27, 1⟩ with frame := some (frame .handover 5), waiting := [roller] }
    let s := soughtMasked (sending (station 4 500 [r] LotEntry.cleared) (.home 136) (frame .handover 5)
      (.handover ⟨5, 136, ⟨3449, 27, 1⟩, 0, []⟩))
    let e : LotEntry := { entryFor 136 .owned (some ⟨3449, 27, 1⟩) with
      frame := some (frame .handover 4), waiting := [roller] }
    let u := soughtMasked (sending (station 5 500 [home137] e) (.entry 0) (frame .handover 4)
      (.handover ⟨4, 136, ⟨3449, 27, 1⟩, 0, []⟩))
    s.OneHome 136 r ∧ s.MayServe [roller] ∧ ¬ FitsIn roller.figures ⟨3449, 27, 1⟩ ∧ u.entryOf 136 = some 0 ∧
    u.findHome 136 = none ∧ u.MayServe [roller] ∧
    u.line.transmission = some ⟨.entry 0, .handover, 7, some ⟨u.own, .handover ⟨4, 136, ⟨3449, 27, 1⟩, 0, []⟩⟩⟩ ∧
    ({ handing3 with station := .serving } : State).Acts ∧ (leaving handing5).Acts :=
  ⟨⟨rfl, fun x hx _ => List.mem_singleton.1 hx⟩, (mayServe_masked _).1, by unfold FitsIn; decide, by decide +kernel,
    by decide +kernel, (mayServe_masked _).1, rfl, .inr (.inr rfl), .inr (.inl rfl)⟩

/-- An owner in LEAVING, one whose single request moves on, and a home whose reclaim is accepted at its cut-off. -/
theorem test_meets_ReclaimTakesTheLotBack_forms :
    let e : LotEntry := { entryFor 136 .owned (some ⟨3449, 27, 1⟩) with waiting := [roller] }
    let r := { reclaiming with waiting := [small 0] }
    let s := sought (sending (station 3 1080 [r] LotEntry.cleared) (.home 138) (frame .reclaim 0)
      (.reclaim 138 ⟨60000, 400, 20⟩))
    (leaving (station 5 736 [home137] (owned138 ⟨1, 1, 1⟩))).Hears 3 ∧ (hall5 500 e).Hears 4 ∧
    (hall5 500 e).entryOf 136 = some 0 ∧ (hall5 500 e).MayServe [roller] ∧ ¬ FitsIn roller.figures ⟨3449, 27, 1⟩ ∧
    s.OneHome 138 r ∧ departure138.cutOff ≤ s.minute ∧ s.MayArrive departure138 ⟨60000, 400, 20⟩ r.waiting 412 ∧
    (leaving reclaiming3).Acts :=
  ⟨hears_leaving _ _ rfl (by decide) rfl (by decide), hears_of_ready _ _ rfl rfl (by decide) rfl (by decide),
    by decide +kernel, (mayServe_masked _).1, by unfold FitsIn; decide, ⟨rfl, fun x hx _ => List.mem_singleton.1 hx⟩,
    by decide, mayArrive_sought _ _ _ _ _ (by decide) (by decide) rfl (by decide +kernel) (by decide +kernel),
    .inr (.inl rfl)⟩

theorem test_meets_TallyEndsTheLot_forms :
    (leaving (station 5 1080 [home137] (owned138 ⟨1, 1, 1⟩))).Hears 3 ∧
    (leaving (station 5 1080 [home137] (owned138 ⟨1, 1, 1⟩))).entryOf 138 = some 0 ∧
    (hall5 540 (asking136 roller)).Hears 4 ∧ (hall5 540 (asking136 roller)).entryOf 136 = some 0 ∧
    (hall5 540 (asking136 roller)).MayServe [roller] ∧ (hall4 540 (away136 roller)).Hears 3 ∧
    (hall4 540 (away136 roller)).OneHome 136 (away136 roller) ∧ (hall4 540 (away136 roller)).MayServe [roller] ∧
    (leaving (tallying { owned138 ⟨1, 1, 1⟩ with frame := some (frame .tally 0) })).Acts ∧
    (leaving away138).Hears 8 ∧ (leaving noticing).Acts ∧ (leaving fetching5).Acts :=
  ⟨hears_leaving _ _ rfl (by decide) rfl (by decide), by decide +kernel,
    hears_of_ready _ _ rfl rfl (by decide) rfl (by decide), by decide +kernel, (mayServe_masked _).1,
    hears_of_ready _ _ rfl rfl (by decide) rfl (by decide), ⟨rfl, fun x hx _ => List.mem_singleton.1 hx⟩,
    (mayServe_masked _).1, .inr (.inl rfl), hears_leaving _ _ rfl (by decide) rfl (by decide), .inr (.inl rfl),
    .inr (.inl rfl)⟩

end Sys2Proof.Machine.Tests
end

section
/-! Digit characters (`ofDigits` reads back what `toDigits` writes), and how each form of screen classifies a destination
(R45, R46, R47). -/

namespace Sys2Proof.Machine

theorem digitValue_ofNat {d : Nat} (h : d < 10) : digitValue (BitVec.ofNat 8 (0x30 + d)) = d := by
  rw [digitValue, BitVec.toNat_ofNat]
  omega

/-- A number read before digits `cs` counts 10 to their length times over in the number read with them. -/
theorem ofDigits_from (cs : Bytes) (a : Nat) :
    cs.foldl (fun a c => a * 10 + digitValue c) a = a * 10 ^ cs.length + ofDigits cs := by
  induction cs generalizing a with
  | nil => simp [ofDigits]
  | cons c cs ih =>
    simp only [ofDigits, List.foldl_cons, List.length_cons, ih (a * 10 + digitValue c), ih (0 * 10 + digitValue c)]
    ring

theorem ofDigits_cons (c : Byte) (cs : Bytes) : ofDigits (c :: cs) = digitValue c * 10 ^ cs.length + ofDigits cs := by
  rw [ofDigits, List.foldl_cons, ofDigits_from, Nat.zero_mul, Nat.zero_add]

/-- `w` digit characters keep the low `w` decimal digits of a number. -/
theorem ofDigits_toDigits (w n : Nat) : ofDigits (toDigits w n) = n % 10 ^ w := by
  induction w with
  | zero => simp [toDigits, ofDigits, Nat.mod_one]
  | succ w ih =>
    have leading : digitValue (BitVec.ofNat 8 (0x30 + n / 10 ^ w % 10)) = n / 10 ^ w % 10 :=
      digitValue_ofNat (Nat.mod_lt _ (by decide))
    rw [toDigits, ofDigits_cons, toDigits_length, leading, ih, Nat.pow_succ, Nat.mod_mul, Nat.add_comm, Nat.mul_comm]

theorem ofDigits_toDigits_of_lt {w n : Nat} (h : n < 10 ^ w) : ofDigits (toDigits w n) = n := by
  rw [ofDigits_toDigits, Nat.mod_eq_of_lt h]

theorem Place.hits_iff (e : Place) (destination : Bytes) :
    e.hits destination = true ↔ destination.take e.length = e.digits :=
  beq_iff_eq

theorem any_hits_iff (es : List Place) (destination : Bytes) :
    es.any (·.hits destination) = true ↔ ∃ e ∈ es, destination.take e.length = e.digits := by
  simp only [List.any_eq_true, Place.hits_iff]

/-- With the inverse flag clear, a destination that some entry matches is restricted (R45). -/
theorem Screen.restricts_places_iff (es : List Place) (destination : Bytes) :
    (Screen.places false es).restricts destination = true ↔ ∃ e ∈ es, destination.take e.length = e.digits := by
  rw [Screen.restricts, Bool.bne_false, any_hits_iff]

/-- With the inverse flag set, a destination that no entry matches is restricted (R46). -/
theorem Screen.restricts_inverse_places_iff (es : List Place) (destination : Bytes) :
    (Screen.places true es).restricts destination = true ↔ ∀ e ∈ es, destination.take e.length ≠ e.digits := by
  simp only [Screen.restricts, bne_iff_ne, ne_eq, any_hits_iff, not_exists, not_and]

/-- The hash index of the destination whose first three digits spell `p` and whose last three spell `s` (R47). -/
theorem hashIndex_toDigits {p s : Nat} (hp : p < 1000) (hs : s < 1000) :
    hashIndex (toDigits 3 p ++ toDigits 3 s) = (p * 41 + s) % 512 := by
  have pre : (toDigits 3 p ++ toDigits 3 s).take 3 = toDigits 3 p := List.take_left' (toDigits_length 3 p)
  have suf : ((toDigits 3 p ++ toDigits 3 s).drop 3).take 3 = toDigits 3 s := by
    rw [List.drop_left' (toDigits_length 3 p), List.take_of_length_le (toDigits_length 3 s).le]
  rw [hashIndex, pre, suf, ofDigits_toDigits_of_lt hp, ofDigits_toDigits_of_lt hs]

/-- Settles O20: an exact screen by whether its inverse flag is set, a hash screen by its index of the two numbers. -/
theorem screensClassify : Obligations.ScreensClassify := by
  unfold Obligations.ScreensClassify
  refine ⟨fun inverse es d => ?_, fun table p s hp hs => ?_⟩
  · cases inverse with
    | false => simpa using Screen.restricts_places_iff es d
    | true => simpa using Screen.restricts_inverse_places_iff es d
  · rw [Screen.restricts, hashIndex_toDigits hp hs]

end Sys2Proof.Machine
end

section
/-! The check digit as a weighted sum modulo 10, each of whose weights is coprime to 10, so that a change of any one digit
shows in it (R164). -/

namespace Sys2Proof.Machine

theorem isDigit_iff (c : Byte) : isDigit c = true ↔ 0x30 ≤ c.toNat ∧ c.toNat ≤ 0x39 := by
  rw [isDigit, Bool.and_eq_true, decide_eq_true_iff, decide_eq_true_iff]

theorem digitValue_lt_ten {c : Byte} (hc : isDigit c = true) : digitValue c < 10 := by
  rw [isDigit_iff] at hc
  rw [digitValue]
  omega

/-- Two digit characters of one value are one character. -/
theorem digitValue_inj {c d : Byte} (hc : isDigit c = true) (hd : isDigit d = true) (h : digitValue c = digitValue d) :
    c = d := by
  rw [isDigit_iff] at hc hd
  rw [digitValue, digitValue] at h
  exact BitVec.eq_of_toNat_eq (by omega)

/-- The sum `checkSum` takes, over any list of weights. -/
def weightedSum (weights : List Nat) (ds : Bytes) : Nat := ((ds.zip weights).map (fun d => digitValue d.1 * d.2)).sum

theorem checkSum_eq_weightedSum (ds : Bytes) : checkSum ds = weightedSum checkWeights ds := rfl

@[simp] theorem weightedSum_nil (ws : List Nat) : weightedSum ws [] = 0 := rfl

@[simp] theorem weightedSum_cons (w : Nat) (ws : List Nat) (d : Byte) (ds : Bytes) :
    weightedSum (w :: ws) (d :: ds) = digitValue d * w + weightedSum ws ds := rfl

/-- Writing `x` at a position exchanges that position's product and no other. -/
theorem weightedSum_set (ws : List Nat) (ds : Bytes) (k : Nat) (x : Byte) (hk : k < ds.length) (hw : k < ws.length) :
    weightedSum ws (ds.set k x) + digitValue ds[k] * ws[k] = weightedSum ws ds + digitValue x * ws[k] := by
  induction ds generalizing ws k with
  | nil => cases hk
  | cons d ds ih =>
    cases ws with
    | nil => cases hw
    | cons w ws =>
      cases k with
      | zero =>
        simp only [List.set_cons_zero, List.getElem_cons_zero, weightedSum_cons]
        omega
      | succ k =>
        have rest := ih ws k (Nat.lt_of_succ_lt_succ hk) (Nat.lt_of_succ_lt_succ hw)
        simp only [List.set_cons_succ, List.getElem_cons_succ, weightedSum_cons]
        omega

theorem checkWeights_coprime : ∀ w ∈ checkWeights, Nat.Coprime 10 w := by decide

/-- The check digit tells two sums apart just when they differ modulo 10. -/
theorem checkDigit_eq_iff (ds es : Bytes) : checkDigit ds = checkDigit es ↔ checkSum ds ≡ checkSum es [MOD 10] := by
  rw [checkDigit, checkDigit, Nat.ModEq]
  omega

/-- The weighted sum of ten digit characters, written out (R164). -/
theorem checkSum_digits {a b c d e f g h i j : Nat} (ha : a < 10) (hb : b < 10) (hc : c < 10) (hd : d < 10) (he : e < 10)
    (hf : f < 10) (hg : g < 10) (hh : h < 10) (hi : i < 10) (hj : j < 10) :
    checkSum ([a, b, c, d, e, f, g, h, i, j].map (fun n => BitVec.ofNat 8 (0x30 + n))) =
      7 * a + 3 * b + c + 7 * d + 3 * e + f + 7 * g + 3 * h + i + 7 * j := by
  simp only [checkSum_eq_weightedSum, checkWeights, List.map_cons, weightedSum_cons, List.map_nil, weightedSum_nil,
    digitValue_ofNat, ha, hb, hc, hd, he, hf, hg, hh, hi, hj]
  omega

/-- If the check digit stays when `x` is written at a position, then `x` is the digit that stood there: the two products
agree modulo 10, and the weight cancels. -/
theorem getElem_eq_of_checkDigit_set {ds : Bytes} {k : Nat} {x : Byte} (hlen : ds.length = 10) (hk : k < ds.length)
    (hd : isDigit ds[k] = true) (hx : isDigit x = true) (same : checkDigit (ds.set k x) = checkDigit ds) : ds[k] = x := by
  have hw : k < checkWeights.length := hk.trans_eq hlen
  have sums : checkSum (ds.set k x) ≡ checkSum ds [MOD 10] := (checkDigit_eq_iff _ _).1 same
  have exchange : checkSum (ds.set k x) + digitValue ds[k] * checkWeights[k] =
      checkSum ds + digitValue x * checkWeights[k] := weightedSum_set checkWeights ds k x hk hw
  have products : digitValue ds[k] * checkWeights[k] ≡ digitValue x * checkWeights[k] [MOD 10] :=
    sums.add_left_cancel (exchange ▸ Nat.ModEq.refl _)
  have values : digitValue ds[k] ≡ digitValue x [MOD 10] :=
    products.cancel_right_of_coprime (checkWeights_coprime _ (List.getElem_mem hw))
  exact digitValue_inj hd hx (values.eq_of_lt_of_lt (digitValue_lt_ten hd) (digitValue_lt_ten hx))

/-- Settles O21: the sum written out for the first part; for the second, the weight at the changed position cancels
modulo 10. -/
theorem checkDigitFindsOneWrongDigit : Obligations.CheckDigitFindsOneWrongDigit := by
  unfold Obligations.CheckDigitFindsOneWrongDigit
  refine ⟨fun a b c d e f g h i j ha hb hc hd he hf hg hh hi hj => ?_, fun ds k x hlen hds hx hk hne same => ?_⟩
  · rw [checkDigit, checkSum_digits ha hb hc hd he hf hg hh hi hj]
  · exact hne (getElem_eq_of_checkDigit_set hlen hk (hds _ (List.getElem_mem hk)) hx same)

end Sys2Proof.Machine
end

section
/-! The one result of every command, and the port's and the engine's gates: what a proof about all commands splits into
(R172, R175, R181). -/

namespace Sys2Proof.Machine

/-- While RSTN is high a command that the station state takes is its own part. -/
theorem State.exchange_taken {s : State} {c : PortCommand} (action : State → State) (running : s.held = false)
    (taken : availability c s.station = none) : s.exchange c action = action s := by
  rw [State.exchange, if_neg (by simp [running]), taken]

/-- While RSTN is high a command that the station state does not take is answered with the table's code alone. -/
theorem State.exchange_refused {s : State} {c : PortCommand} {code : ResponseCode} (action : State → State)
    (running : s.held = false) (refused : availability c s.station = some code) :
    s.exchange c action = s.answer (plain code) := by
  rw [State.exchange, if_neg (by simp [running]), refused]

theorem State.exchange_held {s : State} {c : PortCommand} (action : State → State) (held : s.held = true) :
    s.exchange c action = { s with response := none } := by
  rw [State.exchange, if_pos held]

/-- What holds of a station with any response, and of what the command does where it is taken, holds after the exchange. -/
theorem State.exchange_induction {P : State → Prop} (s : State) (c : PortCommand) (action : State → State)
    (response : ∀ r, P { s with response := r })
    (taken : s.held = false → availability c s.station = none → P (action s)) : P (s.exchange c action) := by
  cases held : s.held with
  | true => rw [State.exchange_held action held]; exact response none
  | false =>
    cases free : availability c s.station with
    | none => rw [State.exchange_taken action held free]; exact taken held free
    | some code => rw [State.exchange_refused action held free]; exact response _

theorem State.whenRunning_running {s : State} (action : State → State) (running : s.held = false) :
    s.whenRunning action = action s := by
  rw [State.whenRunning, if_neg (by simp [running])]

theorem State.whenRunning_held {s : State} (action : State → State) (held : s.held = true) :
    s.whenRunning action = s := by
  rw [State.whenRunning, if_pos held]

theorem State.whenRunning_induction {P : State → Prop} (s : State) (action : State → State) (still : P s)
    (acts : s.held = false → P (action s)) : P (s.whenRunning action) := by
  cases held : s.held with
  | true => rwa [State.whenRunning_held action held]
  | false => rw [State.whenRunning_running action held]; exact acts held

theorem withSlot_induction {P : State → Prop} (s : State) (i : Nat) (action : State → State)
    (response : ∀ r, P { s with response := r }) (inRange : i < 8 → P (action s)) : P (withSlot s i action) := by
  unfold withSlot
  split
  case isTrue h => exact inRange h
  case isFalse => exact response _

/-- SUBMIT is taken in READY alone (R175). -/
theorem availability_submit {st : StationState} (h : availability .submit st = none) : st = .ready := by
  cases st <;> simp [availability] at h ⊢

theorem availability_leave {st : StationState} (h : availability .leave st = none) : st = .ready := by
  cases st <;> simp [availability] at h ⊢

theorem availability_configure {st : StationState} (h : availability .configure st = none) : st = .unconfigured := by
  cases st <;> simp [availability] at h ⊢

theorem availability_resetWarm {st : StationState} (h : availability .resetWarm st = none) :
    st = .ready ∨ st = .leaving ∨ st = .serving ∨ st = .tariffFault := by
  cases st <;> simp [availability] at h ⊢

/-- No command of the ring is taken in LOADING (R175). -/
theorem availability_loading {c : PortCommand} (h : availability c .loading = none) : c = .status := by
  cases c <;> simp [availability] at h ⊢

/-- A property of every command's result is one of every step's, the idle step apart. -/
theorem step_induction {P : State → State → Prop} {s t : State} (h : step s = .next t)
    (idle : s.pending = [] → P s s.tick)
    (command : ∀ c rest, s.pending = c :: rest → ∀ u, exec c { s with pending := rest } = .next u → P s u) : P s t := by
  unfold step at h
  split at h
  case h_1 c rest waiting => exact command c rest waiting t h
  case h_2 none =>
    cases h
    exact idle none

end Sys2Proof.Machine
end

section
/-! `Keeps named s t`: what every command but a full reset does to the ranges, the agreement of the blocks, the day's
records and the flags, the codes `named` in a CLEAR apart. Each operation of the model is one (R27, R44, R92, R119, R147,
R154 to R156, R165, R174). -/

namespace Sys2Proof.Machine

/-! ### The line controller -/

/-- The line controller stays coherent, neither enters nor leaves OFF, and does not leave DUPLICATE. -/
structure LineKeeps (l m : LineController) : Prop where
  coherent : l.Coherent → m.Coherent
  off : l.Coherent → (m.state = .off ↔ l.state = .off)
  duplicate : l.Coherent → l.state = .duplicate → m.state = .duplicate

namespace LineKeeps

theorem refl (l : LineController) : LineKeeps l l := ⟨id, fun _ => Iff.rfl, fun _ => id⟩

theorem trans {l m n : LineController} (h : LineKeeps l m) (k : LineKeeps m n) : LineKeeps l n where
  coherent c := k.coherent (h.coherent c)
  off c := (k.off (h.coherent c)).trans (h.off c)
  duplicate c d := k.duplicate (h.coherent c) (h.duplicate c d)

/-- A change of the fields that coherence does not speak of. -/
theorem of_same {l m : LineController} (state : m.state = l.state) (attempt : m.attempt = l.attempt)
    (fault : m.faultTimer = l.faultTimer) (beacon : m.beaconTimer = l.beaconTimer)
    (transmission : m.transmission = l.transmission) : LineKeeps l m := by
  refine ⟨fun c => ?_, fun _ => by rw [state], fun _ d => by rwa [state]⟩
  rwa [LineController.Coherent, state, attempt, fault, beacon, transmission]

/-- The end of a transmission. -/
theorem endTransmission (l : LineController) : LineKeeps l { l with transmission := none } :=
  ⟨fun ⟨fault, beacon, _, attempt⟩ => ⟨fault, beacon, by simp, attempt⟩, fun _ => Iff.rfl, fun _ => id⟩

theorem markPresent (s : State) (n : Nat) : LineKeeps s.line (s.markPresent n).line :=
  of_same rfl rfl rfl rfl rfl

theorem clearFrame (s : State) (o : FrameOwner) : LineKeeps s.line (s.clearFrame o).line := by
  cases o <;> exact of_same rfl rfl rfl rfl rfl

/-- Entry to DUPLICATE of a station that is not in OFF (R156). -/
theorem enterDuplicate (s : State) (on : s.line.Coherent → s.line.state ≠ .off) : LineKeeps s.line s.enterDuplicate.line := by
  unfold State.enterDuplicate
  split
  · exact refl _
  · exact ⟨fun _ => by simp [LineController.Coherent], fun c => by simp [on c], fun _ _ => rfl⟩

theorem offers_iff (l : LineState) : l.offers = true ↔ l = .joining ∨ l = .active := by
  cases l <;> simp [LineState.offers]

theorem nextAttempt_count_pos (a : Option Attempt) (t : Transmission) : 1 ≤ (nextAttempt a t).count := by
  unfold nextAttempt
  split
  · split <;> simp
  · simp

/-- A failed attempt: below the limit it is counted, at the limit the line is FAULTED (R154, R155). -/
theorem failAttempt (s : State) (t : Transmission) : LineKeeps s.line (s.failAttempt t).line := by
  unfold State.failAttempt
  dsimp only
  split
  case isTrue sends =>
    split
    case isTrue below =>
      refine ⟨fun ⟨fault, beacon, _, _⟩ => ⟨fault, beacon, by simp, ?_⟩, fun _ => Iff.rfl, fun _ => id⟩
      rintro a ⟨⟩
      exact ⟨(offers_iff _).2 sends, nextAttempt_count_pos _ _, Nat.le_of_lt_succ below⟩
    case isFalse =>
      refine ⟨fun _ => by simp [State.enterFaulted, LineController.Coherent], fun _ => ?_, fun _ d => ?_⟩
      · obtain joining | active := sends <;> simp [State.enterFaulted, *]
      · obtain joining | active := sends <;> simp_all
  case isFalse => exact endTransmission _

theorem ownAccepted (s : State) (t : Transmission) : LineKeeps s.line (s.ownAccepted t).line := by
  have counted : LineKeeps s.line { s.line with
      attempt := none
      beaconTimer := if s.line.state = .active then some Config.beaconTime else s.line.beaconTimer } := by
    refine ⟨fun ⟨fault, beacon, transmission, _⟩ => ⟨fault, ?_, transmission, by simp⟩, fun _ => Iff.rfl, fun _ => id⟩
    simp only
    split
    · intro; assumption
    · exact beacon
  unfold State.ownAccepted
  dsimp only
  split
  · exact trans (by exact counted) (clearFrame _ _)
  · exact counted

/-- An accepted frame at a station that is not in OFF (R153). -/
theorem takeFrame (s : State) (f : HallFrame) (on : s.line.state ≠ .off) : LineKeeps s.line (s.takeFrame f).line := by
  have silent (l : LineController) : LineKeeps l { l with transmission := none, droveSlot := false } :=
    (endTransmission l).trans (of_same rfl rfl rfl rfl rfl)
  unfold State.takeFrame
  dsimp only
  refine trans ?_ (silent _)
  split
  · exact (markPresent s _).trans (ownAccepted _ _)
  · split
    · exact (markPresent s _).trans (enterDuplicate _ fun _ => on)
    · exact markPresent s _

theorem hearRejected (s : State) (drove : Bool) : LineKeeps s.line (s.hearRejected drove).line := by
  have counted : LineKeeps s.line ({ s.countRejected with line.droveSlot := drove && !s.line.sends } : State).line :=
    of_same rfl rfl rfl rfl rfl
  unfold State.hearRejected
  split
  · exact refl _
  · dsimp only
    split
    · split
      · exact counted.trans (failAttempt _ _)
      · exact counted.trans (endTransmission _)
    · exact counted

theorem queueHello (s : State) : LineKeeps s.line s.queueHello.line := by
  unfold State.queueHello
  split
  · exact refl _
  · exact of_same rfl rfl rfl rfl rfl

/-- LISTEN is left for JOINING (R158). -/
theorem seeIdle (s : State) : LineKeeps s.line s.seeIdle.line := by
  unfold State.seeIdle
  split
  case isTrue listening =>
    refine trans ⟨fun ⟨fault, beacon, transmission, attempt⟩ => ⟨?_, ?_, ?_, ?_⟩, ?_, ?_⟩ (queueHello _)
    all_goals simp_all [LineState.offers]
  case isFalse => exact refl _

/-- A frame is chosen in JOINING and ACTIVE alone, and starts (R157). -/
theorem startFrame (s : State) : LineKeeps s.line s.startFrame.line := by
  unfold State.startFrame
  split
  case h_1 o f idle chosen =>
    have sends : s.line.state.offers = true := by
      rw [offers_iff]
      revert chosen
      unfold State.chooseFrame
      split <;> simp_all
    exact ⟨fun ⟨fault, beacon, _, attempt⟩ => ⟨fault, beacon, fun _ => sends, attempt⟩, fun _ => Iff.rfl, fun _ => id⟩
  case h_2 => exact refl _

theorem winLine (s : State) : LineKeeps s.line s.winLine.line := by
  unfold State.winLine
  split
  case h_1 t sending =>
    split
    · exact refl _
    · split
      · exact ⟨fun ⟨fault, beacon, transmission, attempt⟩ => ⟨fault, beacon, fun _ => transmission (by simp [sending]), attempt⟩,
          fun _ => Iff.rfl, fun _ => id⟩
      · exact endTransmission _
  case h_2 => exact refl _

theorem loseArbitration (s : State) : LineKeeps s.line s.loseArbitration.line := by
  unfold State.loseArbitration
  split
  · split
    · exact refl _
    · exact endTransmission _
  · exact refl _

theorem readbackFails (s : State) : LineKeeps s.line s.readbackFails.line := by
  unfold State.readbackFails
  split
  · split
    · exact failAttempt _ _
    · exact endTransmission _
  · exact refl _

/-- A duplicate found while this station sends, which it does in JOINING and ACTIVE alone (R147, R156). -/
theorem readbackOther (s : State) : LineKeeps s.line s.readbackOther.line := by
  unfold State.readbackOther
  split
  case h_1 t sending =>
    split
    · have found : s.line.Coherent → LineKeeps s.line s.stopSending.enterDuplicate.line := by
        intro ⟨_, _, transmission, _⟩
        refine trans (endTransmission _) (enterDuplicate s.stopSending fun _ off => ?_)
        have sends := transmission (by simp [sending])
        simp only [State.stopSending] at off
        simp [off, LineState.offers] at sends
      exact ⟨fun c => (found c).coherent c, fun c => (found c).off c, fun c => (found c).duplicate c⟩
    · exact refl _
  case h_2 => exact refl _

/-- FAULTED is left for LISTEN (R155). -/
theorem faultExpiry (s : State) : LineKeeps s.line s.faultExpiry.line := by
  unfold State.faultExpiry
  split
  case isTrue expires =>
    obtain ⟨faulted, -⟩ := expires
    refine ⟨fun ⟨_, beacon, transmission, attempt⟩ => ⟨?_, ?_, ?_, ?_⟩, ?_, ?_⟩
    all_goals simp_all [LineState.offers]
  case isFalse => exact refl _

theorem beaconExpiry (s : State) : LineKeeps s.line s.beaconExpiry.line := by
  have stopped : LineKeeps s.line { s.line with beaconTimer := none } :=
    ⟨fun ⟨fault, _, transmission, attempt⟩ => ⟨fault, fun h => Bool.noConfusion h, transmission, attempt⟩,
      fun _ => Iff.rfl, fun _ => id⟩
  unfold State.beaconExpiry
  split
  · exact trans stopped (queueHello { s with line.beaconTimer := none })
  · exact refl _

/-- The own HELLO takes JOINING to ACTIVE (R158). -/
theorem onHello (s : State) (edition : Nat) (mine : Bool) : LineKeeps s.line (s.onHello edition mine).line := by
  unfold State.onHello
  split
  · split
    case isTrue joining =>
      refine ⟨fun ⟨fault, _, _, attempt⟩ => ⟨?_, fun _ => rfl, fun _ => rfl, fun a h => ⟨rfl, (attempt a h).2⟩⟩, ?_, ?_⟩
      all_goals simp_all
    case isFalse => exact refl _
  · split <;> exact refl _

theorem acceptHello (s : State) (f : HallFrame) (edition : Nat) : LineKeeps s.line (s.acceptHello f edition).line := by
  unfold State.acceptHello
  split
  · exact refl _
  case isFalse on => exact (takeFrame s f on).trans (onHello _ _ _)

/-- A warm reset leaves OFF and DUPLICATE and takes every other state to LISTEN (R162). -/
theorem warm (l : LineController) : LineKeeps l l.warm := by
  refine ⟨fun _ => ?_, fun _ => ?_, fun _ d => by simp [LineController.warm, d, LineState.warm]⟩
  · cases h : l.state <;> simp [LineController.warm, LineController.Coherent, LineController.cleared, LineState.warm, h]
  · cases h : l.state <;> simp [LineController.warm, LineState.warm, h]

theorem tick (s : State) : LineKeeps s.line s.tick.line := by
  refine ⟨fun ⟨fault, beacon, transmission, attempt⟩ => ⟨?_, ?_, transmission, attempt⟩, fun _ => Iff.rfl, fun _ => id⟩
  · simpa [State.tick, Timer.tick] using fault
  · simpa [State.tick, Timer.tick] using beacon

end LineKeeps

end Sys2Proof.Machine
end

section
/-! `Keeps named s t`, for every operation of the model and then for every command: what all of them but a full reset do to
the ranges, the agreement of the blocks, the day's records and the flags, the codes `named` in a CLEAR apart (R27, R44,
R92, R119, R147, R165, R174). -/

namespace Sys2Proof.Machine

namespace LineStep

theorem nextOrdinal (s : State) : LineStep s s.nextOrdinal := by constructor <;> first | rfl | simp [State.nextOrdinal]

theorem queueHello (s : State) : LineStep s s.queueHello := by
  unfold State.queueHello
  split
  · exact refl s
  · exact (setLine s { s.line with hello := some s.ordinal } rfl).trans (nextOrdinal _)

theorem seeIdle (s : State) : LineStep s s.seeIdle := by
  unfold State.seeIdle
  split
  · exact (setLine s { s.line with state := .joining } rfl).trans (queueHello _)
  · exact refl s

theorem startFrame (s : State) : LineStep s s.startFrame := by
  unfold State.startFrame
  split
  · exact setLine s _ rfl
  · exact refl s

theorem winLine (s : State) : LineStep s s.winLine := by
  unfold State.winLine
  split
  · split
    · exact refl s
    · split <;> exact setLine s _ rfl
  · exact refl s

theorem loseArbitration (s : State) : LineStep s s.loseArbitration := by
  unfold State.loseArbitration
  split
  · split
    · exact refl s
    · exact setLine s _ rfl
  · exact refl s

theorem readbackFails (s : State) : LineStep s s.readbackFails := by
  unfold State.readbackFails
  split
  · split
    · exact failAttempt _ _
    · exact setLine s _ rfl
  · exact refl s

theorem readbackOther (s : State) : LineStep s s.readbackOther := by
  unfold State.readbackOther
  split
  · split
    · exact (setLine s { s.line with transmission := none } rfl).trans (enterDuplicate _)
    · exact refl s
  · exact refl s

theorem faultExpiry (s : State) : LineStep s s.faultExpiry := by
  unfold State.faultExpiry
  split
  · exact setLine s _ rfl
  · exact refl s

theorem beaconExpiry (s : State) : LineStep s s.beaconExpiry := by
  unfold State.beaconExpiry
  split
  · exact (setLine s { s.line with beaconTimer := none } rfl).trans (queueHello _)
  · exact refl s

theorem absenceExpiry (s : State) (n : Nat) : LineStep s (s.absenceExpiry n) := setLine s _ (List.length_modify ..)

theorem onHello (s : State) (edition : Nat) (mine : Bool) : LineStep s (s.onHello edition mine) := by
  unfold State.onHello
  split
  · split
    · exact setLine s _ rfl
    · exact refl s
  · split
    · exact raise s _
    · exact refl s

theorem acceptHello (s : State) (f : HallFrame) (edition : Nat) : LineStep s (s.acceptHello f edition) := by
  unfold State.acceptHello
  split
  · exact refl s
  · exact (takeFrame s f).trans (onHello _ _ _)

end LineStep

/-- What every command but a full reset does: positions, counters and tables stay in range, the blocks stay in agreement,
and then configuration, loaded store, sequence counter and DUPLICATE stay; no flag is cleared but those of the codes
`named`. -/
structure Keeps (named : List Nat) (s t : State) : Prop where
  ranges : s.InRange → t.InRange
  blocks : s.BlocksAgree → t.BlocksAgree
  configuration : s.BlocksAgree → ∀ k, s.configuration = some k → t.configuration = some k
  store : s.BlocksAgree → ∀ f, s.store = .loaded f → t.store = .loaded f
  sequence : s.BlocksAgree → ∀ n, s.sequence = some n → ∃ m, t.sequence = some m ∧ n ≤ m
  duplicate : s.BlocksAgree → s.line.state = .duplicate → t.line.state = .duplicate
  flags : ∀ f : Flag, f.code ∉ named → flagSet s.unit.summary f = true → flagSet t.unit.summary f = true

namespace Keeps

variable {named : List Nat} {s t u : State}

theorem trans (h : Keeps named s t) (k : Keeps named t u) : Keeps named s u where
  ranges r := k.ranges (h.ranges r)
  blocks b := k.blocks (h.blocks b)
  configuration b c e := k.configuration (h.blocks b) c (h.configuration b c e)
  store b f e := k.store (h.blocks b) f (h.store b f e)
  sequence b n e := by
    obtain ⟨m, em, nm⟩ := h.sequence b n e
    obtain ⟨o, eo, mo⟩ := k.sequence (h.blocks b) m em
    exact ⟨o, eo, nm.trans mo⟩
  duplicate b d := k.duplicate (h.blocks b) (h.duplicate b d)
  flags f free set := k.flags f free (h.flags f free set)

/-- A change that reaches neither the line nor what the blocks agree on. -/
theorem of_line_and_unit (ranges : s.InRange → t.InRange) (line : LineKeeps s.line t.line)
    (station : t.station = s.station) (store : t.store = s.store) (configuration : t.configuration = s.configuration)
    (clock : t.clock.isSome = s.clock.isSome) (screen : t.screen = s.screen)
    (sequence : t.sequence.isSome = s.sequence.isSome)
    (rises : ∀ n, s.sequence = some n → ∃ m, t.sequence = some m ∧ n ≤ m)
    (flags : ∀ f : Flag, f.code ∉ named → flagSet s.unit.summary f = true → flagSet t.unit.summary f = true) :
    Keeps named s t where
  ranges := ranges
  blocks := by
    rintro ⟨b1, b2, b3, b4, b5, b6, b7⟩
    have service : t.inService = s.inService := by rw [State.inService, station, State.inService]
    refine ⟨?_, ?_, ?_, ?_, ?_, ?_, line.coherent b7⟩
    · rwa [station, store]
    · rwa [station, configuration]
    · rwa [station, clock]
    · rwa [station, sequence]
    · rwa [service, screen]
    · rwa [service, line.off b7]
  configuration _ k e := configuration.trans e
  store _ f e := store.trans e
  sequence _ := rises
  duplicate := fun ⟨_, _, _, _, _, _, coherent⟩ d => line.duplicate coherent d
  flags := flags

theorem refl (s : State) : Keeps named s s :=
  of_line_and_unit id (.refl _) rfl rfl rfl rfl rfl rfl (fun n e => ⟨n, e, Nat.le_refl n⟩) (fun _ _ => id)

theorem setResponse (s : State) (r : Option Response) : Keeps named s { s with response := r } :=
  of_line_and_unit id (.refl _) rfl rfl rfl rfl rfl rfl (fun n e => ⟨n, e, Nat.le_refl n⟩) (fun _ _ => id)

theorem of_lotStep (h : LotStep s t) : Keeps named s t := by
  refine of_line_and_unit ?_ (by rw [h.line]; exact .refl _) h.station h.store h.configuration (by rw [h.clock]) h.screen ?_
    (fun n e => (h.sequenceSome n e).imp fun m k => ⟨k.1, k.2.1⟩) (fun f _ => h.flags f)
  · rintro ⟨slots, put, rate, count, table, presence, labels, refusals, rejected, clock, sequence⟩
    refine ⟨h.slotsLength.trans slots, by rwa [h.put], by rwa [h.rate], by rwa [h.pendingCount], h.tableLength.trans table,
      by rwa [h.line], (h.labels labels).2, (h.refusals refusals).2, by rwa [h.framesRejected], by rwa [h.clock], ?_⟩
    intro m e
    cases before : s.sequence with
    | none => simp [h.sequenceNone before] at e
    | some n =>
      obtain ⟨m', e', -, bound⟩ := h.sequenceSome n before
      cases e.symm.trans e'
      exact bound (sequence n before)
  · cases before : s.sequence with
    | none => rw [h.sequenceNone before]
    | some n =>
      obtain ⟨m, e, -⟩ := h.sequenceSome n before
      rw [e]
      rfl

theorem of_lineStep (h : LineStep s t) (line : LineKeeps s.line t.line) : Keeps named s t := by
  refine of_line_and_unit ?_ line h.station h.store h.configuration (by rw [h.clock]) h.screen (by rw [h.sequence])
    (fun n e => ⟨n, h.sequence.trans e, Nat.le_refl n⟩) (fun f _ => h.flags f)
  rintro ⟨slots, put, rate, count, table, presence, labels, refusals, rejected, clock, sequence⟩
  have tableLength : t.table.length = s.table.length := by simpa using congrArg List.length h.table
  exact ⟨by rwa [h.ring], by rwa [h.ring], by rwa [h.ring], by rwa [h.ring], tableLength.trans table,
    h.presence.trans presence, by rwa [h.labels], by rwa [h.refusals], h.framesRejected rejected, by rwa [h.clock],
    by rwa [h.sequence]⟩

theorem of_slotStep (h : SlotStep s t) : Keeps named s t := by
  obtain ⟨-, -, station, configuration, -, -, clock, store, screen, -, table, line, sequence⟩ := h.outside
  refine of_line_and_unit ?_ (by rw [line]; exact .refl _) station store configuration (by rw [clock]) screen
    (by rw [sequence]) (fun n e => ⟨n, sequence.trans e, Nat.le_refl n⟩) (fun f _ => h.flags f)
  rintro ⟨slots, put, rate, count, tableLength, presence, labels, refusals, rejected, minute, number⟩
  exact ⟨h.length.trans slots, by rwa [h.ring], by rwa [h.ring], by rwa [h.ring], by rwa [table], by rwa [line],
    h.labels labels, h.refusals refusals, by rwa [h.framesRejected], by rwa [clock], by rwa [sequence]⟩

/-- A change of the ring that keeps its positions in range. -/
theorem setRing (s : State) (r : Ring) (slots : s.ring.slots.length = 8 → r.slots.length = 8)
    (put : s.ring.put < 8 → r.put < 8) (rate : s.ring.rate < 8 → r.rate < 8)
    (count : s.ring.pendingCount ≤ 8 → r.pendingCount ≤ 8) : Keeps named s { s with ring := r } := by
  refine of_line_and_unit ?_ (.refl _) rfl rfl rfl rfl rfl rfl (fun n e => ⟨n, e, Nat.le_refl n⟩) (fun _ _ => id)
  exact fun ⟨a, b, c, d, rest⟩ => ⟨slots a, put b, rate c, count d, rest⟩

/-- A change of the open-consignment record, the watchdog and the count of takings. -/
theorem setConsignment (s : State) (c : Option Consignment) (w : Timer) (n : Nat) :
    Keeps named s { s with ring := { s.ring with consignment := c, watchdog := w, takings := n } } :=
  setRing s _ id id id id

/-- In service the store is LOADED, in each of the three states (R27, R174). -/
theorem storeFits_inService {a b : StationState} (store : TariffStore)
    (ha : a = .ready ∨ a = .leaving ∨ a = .serving) (hb : b = .ready ∨ b = .leaving ∨ b = .serving) :
    storeFits a store = storeFits b store := by
  obtain rfl | rfl | rfl := ha <;> obtain rfl | rfl | rfl := hb <;> cases store <;> rfl

theorem inService_iff (s : State) : s.inService = true ↔ s.Acts := by
  simp [State.inService, State.Acts, or_assoc]

/-- A change of the station state among READY, LEAVING and SERVING. -/
theorem setStation (s : State) (st : StationState) (was : s.Acts) (is : st = .ready ∨ st = .leaving ∨ st = .serving) :
    Keeps named s { s with station := st } where
  ranges := id
  blocks := by
    rintro ⟨store, configuration, clock, sequence, screen, off, coherent⟩
    have served : ({ s with station := st } : State).inService = s.inService := by
      rw [(inService_iff s).2 was, (inService_iff { s with station := st }).2 is]
    have active : s.station ≠ .unconfigured := by obtain h | h | h := was <;> simp [h]
    have active' : st ≠ .unconfigured := by obtain h | h | h := is <;> simp [h]
    simp only [active, ne_eq, not_false_eq_true, iff_true] at configuration clock sequence
    refine ⟨(storeFits_inService _ is was).trans store, ?_, ?_, ?_, by rwa [served], by rwa [served], coherent⟩
    all_goals simpa [active']
  configuration _ _ := id
  store _ _ := id
  sequence _ n e := ⟨n, e, Nat.le_refl n⟩
  duplicate _ := id
  flags _ _ := id

/-- A screen put in force by a READY station (R51). -/
theorem setScreen (s : State) (sc : Screen) (ready : s.station = .ready) :
    Keeps named s { s with screen := some sc } where
  ranges := id
  blocks := by
    rintro ⟨store, configuration, clock, sequence, -, off, coherent⟩
    exact ⟨store, configuration, clock, sequence, by simp [State.inService, ready], off, coherent⟩
  configuration _ _ := id
  store _ _ := id
  sequence _ n e := ⟨n, e, Nat.le_refl n⟩
  duplicate _ := id
  flags _ _ := id

/-! ### The ring -/

theorem closeConsignment (s : State) : Keeps named s s.closeConsignment := setConsignment s _ _ s.ring.takings

theorem refuseConsignment (s : State) (is : List Nat) (why : Reason) (f : Flag) :
    Keeps named s (s.refuseConsignment is why f) :=
  (((of_slotStep (SlotStep.linkMembers s is is 1)).trans (of_slotStep (SlotStep.refuseMembers _ is none why))).trans
    (closeConsignment _)).trans (of_slotStep (SlotStep.raise _ f))

theorem endOpenConsignment (s : State) : Keeps named s s.endOpenConsignment := by
  unfold State.endOpenConsignment
  split
  · exact refuseConsignment _ _ _ _
  · exact refl s

theorem openConsignment (s : State) (i : Nat) (p : ParcelRecord) : Keeps named s (s.openConsignment i p) :=
  (of_slotStep (SlotStep.updateSlot s i _)).trans (setConsignment _ _ _ s.ring.takings)

theorem joinConsignment (s : State) (i : Nat) (c : Consignment) : Keeps named s (s.joinConsignment i c) :=
  (of_slotStep (SlotStep.updateSlot s i _)).trans (setConsignment _ _ s.ring.watchdog s.ring.takings)

theorem takeMiddle (s : State) (i : Nat) (p : ParcelRecord) : Keeps named s (s.takeMiddle i p) := by
  unfold State.takeMiddle
  split
  · exact of_slotStep (SlotStep.refuseAlone s i)
  · split
    · exact refuseConsignment _ _ _ _
    · exact joinConsignment _ _ _

theorem dispatch (s : State) (t : Tariff) (is : List Nat) (service route : Nat) :
    Keeps named s (s.dispatch t is service route) := of_lotStep (LotStep.startRequest _ _)

theorem rateAlone (s : State) (t : Tariff) (i : Nat) (p : ParcelRecord) : Keeps named s (s.rateAlone t i p) := by
  have written (r : Option RatingResult) (fs : List Flag) : Keeps named s ((s.writeRating i r).raiseAll fs) :=
    of_slotStep ((SlotStep.updateSlot s i _).trans (SlotStep.raiseAll _ _))
  unfold State.rateAlone
  dsimp only
  split
  · exact (written _ _).trans (of_slotStep (SlotStep.completeParcel _ _ _ _))
  · exact (written _ _).trans ((of_slotStep (SlotStep.updateSlot _ _ _)).trans (dispatch _ _ _ _ _))

theorem rateConsignment (s : State) (t : Tariff) (is : List Nat) (service : Nat) :
    Keeps named s (s.rateConsignment t is service) := by
  have written (l : List (Nat × Option RatingResult)) (fs : List Flag) : Keeps named s ((s.writeRatings l).raiseAll fs) :=
    of_slotStep ((SlotStep.writeRatings s l).trans (SlotStep.raiseAll _ fs))
  have sought (s : State) : Keeps named s (is.foldl State.seek s) :=
    of_slotStep (SlotStep.foldl State.seek (fun s i => SlotStep.updateSlot s i _) is s)
  unfold State.rateConsignment
  dsimp only
  split
  · exact (written _ _).trans ((sought _).trans (dispatch _ _ _ _ _))
  · exact (written _ _).trans (of_slotStep ((SlotStep.refuseRated _ _).trans (SlotStep.raise _ _)))

theorem takeLast (s : State) (t : Tariff) (i : Nat) (p : ParcelRecord) : Keeps named s (s.takeLast t i p) := by
  unfold State.takeLast
  split
  · exact of_slotStep (SlotStep.refuseAlone s i)
  · dsimp only
    split
    · exact refuseConsignment _ _ _ _
    · exact ((of_slotStep (SlotStep.linkMembers _ _ _ _)).trans (closeConsignment _)).trans (rateConsignment _ _ _ _)

theorem endOpenConsignment_station (s : State) : s.endOpenConsignment.station = s.station := by
  unfold State.endOpenConsignment
  split
  · exact (refuseConsignment_outside s _ _ _).1.2.2.1
  · rfl

theorem takeScreen (s : State) (i : Nat) (r : ScreenRecord) (ready : s.station = .ready) :
    Keeps named s (s.takeScreen i r) := by
  unfold State.takeScreen
  split
  · have completed := SlotStep.completeScreen s i .applied
    exact (of_slotStep completed).trans (setScreen _ _ (completed.outside.2.2.1.trans ready))
  · exact of_slotStep (SlotStep.completeScreen s i _)

theorem takeRecord (s : State) (t : Tariff) (i : Nat) (r : Record) (ready : s.station = .ready) :
    Keeps named s (s.takeRecord t i r) := by
  unfold State.takeRecord
  split
  · exact (endOpenConsignment s).trans (takeScreen _ _ _ ((endOpenConsignment_station s).trans ready))
  · split
    · exact (endOpenConsignment s).trans (openConsignment _ _ _)
    · exact takeMiddle _ _ _
    · exact takeLast _ _ _ _
    · exact (endOpenConsignment s).trans (rateAlone _ _ _ _)

theorem nextPosition_lt (n : Nat) : nextPosition n < 8 := Nat.mod_lt _ (by decide)

theorem advanceRate (s : State) : Keeps named s s.advanceRate :=
  setRing s _ id id (fun _ => nextPosition_lt _) (fun h => (Nat.sub_le _ 1).trans h)

theorem rateAct (s : State) (t : Tariff) (ready : s.station = .ready) : Keeps named s (s.rateAct t) := by
  have counted : Keeps named s { s with ring.takings := s.ring.takings + 1 } :=
    setConsignment s s.ring.consignment s.ring.watchdog (s.ring.takings + 1)
  have taken (r : Record) : Keeps named s (State.takeRecord { s with ring.takings := s.ring.takings + 1 } t s.ring.rate r) :=
    counted.trans (takeRecord _ _ _ _ ready)
  unfold State.rateAct
  split
  · exact (taken _).trans (advanceRate _)
  · exact advanceRate s

theorem ratePosition (s : State) : Keeps named s s.ratePosition := by
  unfold State.ratePosition
  split
  case h_1 ready _ =>
    split
    · exact rateAct s _ ready
    · exact refl s
  case h_2 => exact refl s

theorem watchdogExpiry (s : State) : Keeps named s s.watchdogExpiry := by
  unfold State.watchdogExpiry
  split
  · exact refuseConsignment _ _ _ _
  · exact refl s

/-- A record is placed only while the pending count is below 8 (R59). -/
theorem place (s : State) (r : Record) (room : s.hasRoom = true) : Keeps named s (s.place r) := by
  have below : s.ring.pendingCount < 8 := by
    simp only [State.hasRoom, Bool.and_eq_true, decide_eq_true_eq] at room
    exact room.2
  exact setRing s _ (by simp) (fun _ => nextPosition_lt _) id (fun _ => below)

theorem submitTaken (s : State) (r : Submission) : Keeps named s (s.submitTaken r) := by
  have submitRecord (r : Record) : Keeps named s (s.submitRecord r) := by
    unfold State.submitRecord
    split
    case isTrue room => exact (place s r room).trans (setResponse _ _)
    case isFalse => exact setResponse _ _
  cases r with
  | parcel p => exact submitRecord _
  | screen r => exact submitRecord _
  | unknownKind n => exact setResponse _ _

theorem collectSlot (s : State) (i : Nat) : Keeps named s (s.collectSlot i) := by
  unfold State.collectSlot
  split
  · exact (of_slotStep (SlotStep.emptySlots s _)).trans (setResponse _ _)
  · exact setResponse _ _

theorem dropRequest (s : State) (i : Nat) : Keeps named s (s.dropRequest i) :=
  of_lotStep (LotStep.ofRecords s _ _ s.ordinal (by simp) (by simp) (Nat.le_refl _))

theorem withdrawSlot (s : State) (i : Nat) : Keeps named s (s.withdrawSlot i) := by
  have withdrawGrouped : Keeps named s s.withdrawGrouped := by
    unfold State.withdrawGrouped
    split
    · exact refuseConsignment _ _ _ _
    · exact refl s
  have withdrawSeeking : Keeps named s (s.withdrawSeeking i) :=
    ((dropRequest s i).trans (of_lotStep (LotStep.refuseSeeking _ _ _ _))).trans (of_slotStep (SlotStep.raise _ _))
  unfold State.withdrawSlot
  split
  · exact (of_slotStep (SlotStep.withdrawQueued s i)).trans (setResponse _ _)
  · exact withdrawGrouped.trans (setResponse _ _)
  · exact withdrawSeeking.trans (setResponse _ _)
  all_goals exact setResponse _ _

/-! ### Lot records -/

theorem settleLeaving (s : State) : Keeps named s s.settleLeaving := by
  unfold State.settleLeaving
  split
  case isTrue h => exact setStation s _ (.inr (.inl h.1)) (.inr (.inr rfl))
  case isFalse => exact refl s

theorem leaveTaken (s : State) (ready : s.station = .ready) : Keeps named s s.leaveTaken := by
  unfold State.leaveTaken
  split
  · exact (((setStation s _ (.inl ready) (.inr (.inl rfl))).trans (of_lotStep (LotStep.leaveTable _))).trans
      (settleLeaving _)).trans (setResponse _ _)
  · exact setResponse _ _

theorem publishExpiry (s : State) (i : Nat) : Keeps named s (s.publishExpiry i) := by
  apply of_lotStep
  unfold State.publishExpiry
  dsimp only
  split
  · split
    · exact (LotStep.updateEntry s i _).trans (LotStep.queueRecord _ _ _ _)
    · exact LotStep.updateEntry s i _
  · exact .refl s

theorem setClock (s : State) (c c' : StationClock) (running : s.clock = some c)
    (range : c.minute ≤ 2879 ∧ c.elapsed ≤ 60000 → c'.minute ≤ 2879 ∧ c'.elapsed ≤ 60000) :
    Keeps named s { s with clock := some c' } := by
  refine of_line_and_unit ?_ (.refl _) rfl rfl rfl (by rw [running]; rfl) rfl rfl (fun n e => ⟨n, e, Nat.le_refl n⟩)
    (fun _ _ => id)
  rintro ⟨slots, put, rate, count, table, presence, labels, refusals, rejected, clock, sequence⟩
  refine ⟨slots, put, rate, count, table, presence, labels, refusals, rejected, ?_, sequence⟩
  rintro _ ⟨⟩
  exact range (clock c running)

theorem advanceClock (s : State) : Keeps named s s.advanceClock := by
  unfold State.advanceClock
  split
  · exact refl s
  case h_2 c running =>
    split
    case isTrue below =>
      have minute : c.minute + 1 ≤ 2879 := below
      exact (setClock s c ⟨c.minute + 1, 0⟩ running fun _ => ⟨minute, Nat.zero_le _⟩).trans
        (of_lotStep (LotStep.foldl _ LotStep.reachCutOff _ _))
    case isFalse => exact refl s

theorem acceptLotFrame (s : State) (f : HallFrame) (deliver : State → State) (lots : ∀ s, LotStep s (deliver s)) :
    Keeps named s (s.acceptLotFrame f deliver) := by
  unfold State.acceptLotFrame
  split
  · exact refl s
  case isFalse on =>
    have taken : Keeps named s (s.takeFrame f) := of_lineStep (.takeFrame s f) (.takeFrame s f on)
    split
    · exact (taken.trans (of_lotStep (lots _))).trans (settleLeaving _)
    · exact taken

theorem hearRejected (s : State) (drove : Bool) : Keeps named s (s.hearRejected drove) :=
  of_lineStep (.hearRejected s drove) (.hearRejected s drove)

/-! ### The idle step, CLEAR, CONFIGURE, the load and a warm reset -/

theorem tick (s : State) : Keeps named s s.tick := by
  refine of_line_and_unit ?_ (.tick s) rfl rfl rfl (by simp [State.tick]) rfl rfl (fun n e => ⟨n, e, Nat.le_refl n⟩)
    (fun _ _ => id)
  rintro ⟨slots, put, rate, count, table, presence, labels, refusals, rejected, clock, sequence⟩
  refine ⟨slots, put, rate, count, by simpa [State.tick], by simpa [State.tick], labels, refusals, rejected, ?_, sequence⟩
  intro c e
  obtain ⟨c', running, rfl⟩ := Option.map_eq_some_iff.1 e
  exact ⟨(clock c' running).1, Nat.min_le_right _ _⟩

/-- The flag of no code named stays (R93). -/
theorem flagSet_clearCodes (codes : List Nat) (w : BitVec 16) (f : Flag) (free : f.code ∉ codes)
    (set : flagSet w f = true) : flagSet (clearCodes w codes) f = true := by
  induction codes generalizing w with
  | nil => exact set
  | cons c codes ih =>
    refine ih _ (fun h => free (List.mem_cons_of_mem c h)) ?_
    have other : f.code ≠ c := fun h => free (h ▸ List.mem_cons_self)
    have small : f.code < 16 := by cases f <;> decide
    simp only [flagSet] at set ⊢
    rw [BitVec.getLsbD_and, set, BitVec.getLsbD_not, BitVec.getLsbD_twoPow]
    simp [small, Ne.symm other]

theorem clearTaken (s : State) (l : FlagList) : Keeps l.codes s (s.clearTaken l) := by
  unfold State.clearTaken
  split
  · refine trans ?_ (setResponse _ _)
    exact of_line_and_unit id (.refl _) rfl rfl rfl rfl rfl rfl (fun n e => ⟨n, e, Nat.le_refl n⟩)
      (flagSet_clearCodes l.codes _)
  · exact setResponse _ _

/-- No field of a record that passes lies outside its values (R176). -/
theorem failingField_eq_none_iff (r : ConfigRecord) : failingField r = none ↔ ∀ b ∈ configChecks r, b = true := by
  simp [failingField]

/-- An accepted record: LOADING, with store, configuration, clock and sequence counter (R177). -/
theorem configureTaken (s : State) (r : ConfigRecord) (unconfigured : s.station = .unconfigured) :
    Keeps named s (s.configureTaken r) := by
  unfold State.configureTaken
  split
  · exact setResponse _ _
  case h_2 passes =>
    refine trans ?_ (setResponse _ _)
    have checks := (failingField_eq_none_iff r).1 passes
    simp only [configChecks, List.forall_mem_cons, decide_eq_true_eq] at checks
    obtain ⟨-, -, -, time, sequence, -⟩ := checks
    constructor
    case ranges =>
      rintro ⟨slots, put, rate, count, table, presence, labels, refusals, rejected, -, -⟩
      refine ⟨slots, put, rate, count, by simp [State.accept, Config.entryCount], presence, labels, refusals, rejected, ?_, ?_⟩
      · rintro _ ⟨⟩
        exact ⟨time.trans (by decide), Nat.zero_le _⟩
      · rintro _ ⟨⟩
        exact sequence.trans (by decide)
    case blocks =>
      rintro ⟨-, -, -, -, screen, off, coherent⟩
      simp only [State.inService, unconfigured] at screen off
      exact ⟨rfl, by simp [State.accept], by simp [State.accept], by simp [State.accept],
        by simpa [State.accept, State.inService] using screen, by simpa [State.accept, State.inService] using off, coherent⟩
    case configuration =>
      rintro ⟨-, configuration, -⟩ k e
      simp [unconfigured, e] at configuration
    case store =>
      rintro ⟨store, -⟩ t e
      simp [unconfigured, e, storeFits] at store
    case sequence =>
      rintro ⟨-, -, -, sequence, -⟩ n e
      simp [unconfigured, e] at sequence
    case duplicate => exact fun _ => id
    case flags => exact fun _ _ => id

/-- In LOADING the line is OFF, every timer of it stopped (R147). -/
theorem line_of_loading (b : s.BlocksAgree) (loading : s.station = .loading) : s.line.state = .off := by
  obtain ⟨-, -, -, -, -, off, -⟩ := b
  exact off.2 (by simp [State.inService, loading])

theorem completeLoad (s : State) (f : Tariff) (loading : s.station = .loading) : Keeps named s (s.completeLoad f) := by
  refine trans ?_ (of_lotStep (LotStep.foldl _ (fun s lot => LotStep.testTally s (.home lot)) _ _))
  constructor
  case ranges => exact id
  case blocks =>
    intro b
    have off := line_of_loading b loading
    obtain ⟨-, configuration, clock, sequence, -, -, fault, beacon, transmission, attempt⟩ := b
    rw [off] at fault beacon transmission attempt
    refine ⟨rfl, ?_, ?_, ?_, by simp [State.inService], by simp [State.inService], ?_, ?_, ?_, ?_⟩
    · simpa [loading] using configuration
    · simpa [loading] using clock
    · simpa [loading] using sequence
    · simpa using fault
    · simpa using beacon
    · simpa [LineState.offers] using transmission
    · simpa [LineState.offers] using attempt
  case configuration => exact fun _ _ => id
  case store =>
    rintro ⟨store, -⟩ t e
    simp [loading, e, storeFits] at store
  case sequence => exact fun _ n e => ⟨n, e, Nat.le_refl n⟩
  case duplicate => exact fun b d => by simp [line_of_loading b loading] at d
  case flags => exact fun _ _ => id

theorem faultLoad (s : State) (c : LoadFault) (loading : s.station = .loading) : Keeps named s (s.faultLoad c) := by
  refine trans ?_ (of_slotStep (SlotStep.raise _ _))
  constructor
  case ranges => exact id
  case blocks =>
    rintro ⟨-, configuration, clock, sequence, screen, off, coherent⟩
    exact ⟨rfl, by simpa [loading] using configuration, by simpa [loading] using clock, by simpa [loading] using sequence,
      by simpa [State.inService, loading] using screen, by simpa [State.inService, loading] using off, coherent⟩
  case configuration => exact fun _ _ => id
  case store =>
    rintro ⟨store, -⟩ t e
    simp [loading, e, storeFits] at store
  case sequence => exact fun _ n e => ⟨n, e, Nat.le_refl n⟩
  case duplicate => exact fun _ => id
  case flags => exact fun _ _ => id

theorem endLoad (s : State) (f : Flash) : Keeps named s (s.endLoad f) := by
  unfold State.endLoad
  split
  case h_1 loading _ => exact completeLoad s _ loading
  case h_2 => exact refl s

theorem failLoad (s : State) (f : Flash) : Keeps named s (s.failLoad f) := by
  unfold State.failLoad
  split
  case h_1 loading _ => exact faultLoad s _ loading
  case h_2 => exact refl s

theorem requeueHome (s : State) (lot : Nat) : LotStep s (s.requeueHome lot) := by
  unfold State.requeueHome
  split
  · exact .refl s
  · split
    · split
      · exact LotStep.queueRecord _ _ _ _
      · exact LotStep.testTally _ _
    · exact .refl s

theorem warmReset (s : State)
    (taken : s.station = .ready ∨ s.station = .leaving ∨ s.station = .serving ∨ s.station = .tariffFault) :
    Keeps named s s.warmReset := by
  refine trans ?_ (of_lotStep (LotStep.foldl _ requeueHome _ _))
  constructor
  case ranges =>
    rintro ⟨-, -, -, -, -, -, labels, refusals, rejected, clock, sequence⟩
    exact ⟨rfl, Nat.succ_pos 7, Nat.succ_pos 7, Nat.zero_le 8, rfl, rfl, labels, refusals, rejected, clock, sequence⟩
  case blocks =>
    rintro ⟨store, configuration, clock, sequence, screen, off, coherent⟩
    have line := LineKeeps.warm s.line
    have off' := line.off coherent
    obtain h | h | h | h := taken <;> simp only [h, State.inService] at store configuration clock sequence off ⊢
    all_goals
      refine ⟨?_, by simpa using configuration, by simpa using clock, by simpa using sequence, ?_, ?_, line.coherent coherent⟩
      · cases e : s.store <;> simp_all [storeFits]
      · cases e : s.store <;> simp_all [storeFits, State.defaultScreen, State.tariff, State.inService]
      · simpa [State.inService, off'] using off
  case configuration => exact fun _ _ => id
  case store => exact fun _ _ => id
  case sequence => exact fun _ n e => ⟨n, e, Nat.le_refl n⟩
  case duplicate => exact fun ⟨_, _, _, _, _, _, coherent⟩ => (LineKeeps.warm s.line).duplicate coherent
  case flags => exact fun _ _ => id

end Keeps

end Sys2Proof.Machine
end

section
/-! Every command but a full reset keeps ranges, agreement, the day's records and the flags: the statements that say so of
every step (O4 to O6) and of every command (O9, O10, O12). -/

namespace Sys2Proof.Machine

/-- The flag codes a CLEAR names (R93); no other command names any. -/
def namedCodes : Instr → List Nat
  | .clearSummary l => l.codes
  | _ => []

/-- Of a command of the port: what its own part keeps where it is taken. -/
theorem Keeps.exchange {named : List Nat} (s : State) (c : PortCommand) (action : State → State)
    (taken : availability c s.station = none → Keeps named s (action s)) : Keeps named s (s.exchange c action) :=
  State.exchange_induction s c action (Keeps.setResponse s) (fun _ => taken)

/-- Of an event: what it keeps while the engine runs. -/
theorem Keeps.whenRunning {named : List Nat} (s : State) (action : State → State) (acts : Keeps named s (action s)) :
    Keeps named s (s.whenRunning action) :=
  State.whenRunning_induction s action (Keeps.refl s) (fun _ => acts)

theorem Keeps.withSlot {named : List Nat} (s : State) (i : Nat) (action : State → State)
    (acts : Keeps named s (action s)) : Keeps named s (withSlot s i action) :=
  withSlot_induction s i action (Keeps.setResponse s) (fun _ => acts)

theorem Keeps.setHeld {named : List Nat} (s : State) (b : Bool) : Keeps named s { s with held := b } :=
  .of_line_and_unit id (.refl _) rfl rfl rfl rfl rfl rfl (fun n e => ⟨n, e, Nat.le_refl n⟩) (fun _ _ => id)

theorem exec_keeps {c : Instr} {s t : State} (h : exec c s = .next t) (notFull : c.isFullReset = false) :
    Keeps (namedCodes c) s t := by
  cases c with
  | configure r => cases h; exact .exchange s _ _ fun taken => .configureTaken s r (availability_configure taken)
  | submit r => cases h; exact .exchange s _ _ fun _ => .submitTaken s r
  | collect i => cases h; exact .exchange s _ _ fun _ => .withSlot s i _ (.collectSlot s i)
  | peek i => cases h; exact .exchange s _ _ fun _ => .withSlot s i (fun s => s.answer (ok (.slot (s.slotView i)))) (.setResponse s _)
  | withdraw i => cases h; exact .exchange s _ _ fun _ => .withSlot s i _ (.withdrawSlot s i)
  | status => cases h; exact .exchange s _ (fun s => s.answer (ok (.status s.statusView))) fun _ => .setResponse s _
  | clearSummary l => cases h; exact .exchange s _ _ fun _ => .clearTaken s l
  | lotView lot => cases h; exact .exchange s _ (fun s => s.answer (ok (.lot (s.lotView lot)))) fun _ => .setResponse s _
  | leave => cases h; exact .exchange s _ _ fun taken => .leaveTaken s (availability_leave taken)
  | resetWarm =>
    cases h
    exact .exchange s _ _ fun taken => (Keeps.warmReset s (availability_resetWarm taken)).trans (.setResponse _ _)
  | resetFull => cases notFull
  | unknownCommand f =>
    cases h
    cases f with
    | code n | length n m =>
      show Keeps _ s (if s.held then { s with response := none } else s.answer (badArg 1 0))
      split <;> exact .setResponse s _
    | resetArgument n => exact .exchange s _ (fun s => s.answer (badArg 4 0)) fun _ => .setResponse s _
  | commandDiscarded => cases h; exact .setResponse s none
  | powerOnReset => cases notFull
  | rstnRise => cases h; exact .setHeld s false
  | loadCompletes f => cases h; exact .whenRunning s _ (.endLoad s f)
  | loadFaults f => cases h; exact .whenRunning s _ (.failLoad s f)
  | ratePositionActs => cases h; exact .whenRunning s _ (.ratePosition s)
  | watchdogExpires => cases h; exact .whenRunning s _ (.watchdogExpiry s)
  | clockAdvance => cases h; exact .whenRunning s _ (.advanceClock s)
  | fetchTimerExpires r =>
    cases h
    cases r with
    | home lot => exact .whenRunning s _ (.of_lotStep (LotStep.homeExpiry s lot))
    | entry i => exact .whenRunning s _ (.of_lotStep (LotStep.entryExpiry s i))
  | publishTimerExpires i => cases h; exact .whenRunning s _ (.publishExpiry s i)
  | faultTimerExpires => cases h; exact .whenRunning s _ (.of_lineStep (.faultExpiry s) (.faultExpiry s))
  | beaconTimerExpires => cases h; exact .whenRunning s _ (.of_lineStep (.beaconExpiry s) (.beaconExpiry s))
  | absenceTimerExpires n =>
    cases h
    exact .whenRunning s _ (.of_lineStep (.absenceExpiry s n) (.of_same rfl rfl rfl rfl rfl))
  | idleIntervalSeen => cases h; exact .whenRunning s _ (.of_lineStep (.seeIdle s) (.seeIdle s))
  | transmitStart => cases h; exact .whenRunning s _ (.of_lineStep (.startFrame s) (.startFrame s))
  | frameWinsLine => cases h; exact .whenRunning s _ (.of_lineStep (.winLine s) (.winLine s))
  | readbackFailure => cases h; exact .whenRunning s _ (.of_lineStep (.readbackFails s) (.readbackFails s))
  | readbackDuplicate => cases h; exact .whenRunning s _ (.of_lineStep (.readbackOther s) (.readbackOther s))
  | frameTruncated => cases h; exact .refl s
  | frameRejected r => cases h; exact .whenRunning s _ (.hearRejected s _)
  | handoverAccepted n b =>
    cases h
    refine .whenRunning s _ ?_
    unfold State.acceptHandover
    split
    · exact .hearRejected s _
    · exact .acceptLotFrame s _ _ fun s' => LotStep.onHandover s' n b _
  | reclaimAccepted n lot f => cases h; exact .whenRunning s _ (.acceptLotFrame s _ _ fun s' => LotStep.onReclaim s' lot f _)
  | tallyAccepted n lot f => cases h; exact .whenRunning s _ (.acceptLotFrame s _ _ fun s' => LotStep.onTally s' lot f)
  | fetchAccepted n lot => cases h; exact .whenRunning s _ (.acceptLotFrame s _ _ fun s' => LotStep.onFetch s' n lot _)
  | stallAccepted n lot => cases h; exact .whenRunning s _ (.acceptLotFrame s _ _ fun s' => LotStep.onStall s' lot)
  | noticeAccepted n lot f => cases h; exact .whenRunning s _ (.acceptLotFrame s _ _ fun s' => LotStep.onNotice s' lot f _ _)
  | helloAccepted n e k => cases h; exact .whenRunning s _ (.of_lineStep (.acceptHello s _ e) (.acceptHello s _ e))
  | unknownKindFrameAccepted n bytes =>
    cases h
    refine .whenRunning s (fun s => if s.line.state = .off then s else s.takeFrame ⟨n, .unknown bytes⟩) ?_
    split
    · exact .refl s
    case isFalse on => exact .of_lineStep (.takeFrame s _) (.takeFrame s _ on)
  | arbitrationLost => cases h; exact .whenRunning s _ (.of_lineStep (.loseArbitration s) (.loseArbitration s))

/-! ### The reset state -/

theorem reset_inRange : State.reset.InRange :=
  ⟨rfl, by decide, by decide, by decide, rfl, rfl, by decide, by decide, by decide, nofun, nofun⟩

theorem reset_blocksAgree : State.reset.BlocksAgree := by
  refine ⟨rfl, ?_, ?_, ?_, ?_, ?_, ?_, ?_, ?_, ?_⟩
  case refine_9 => exact nofun
  all_goals decide

theorem vacant_fits : Slot.vacant.Fits := by simp [Slot.Fits, Slot.vacant]

/-- A ring of EMPTY slots fits, in every station state (R80). -/
theorem ringFits_of_cleared {s : State} (cleared : s.ring = Ring.cleared) : s.RingFits := by
  have empty (i : Nat) : s.slot i = Slot.vacant := by
    rw [State.slot, cleared, Ring.cleared, List.getD_eq_getElem?_getD, List.getElem?_replicate]
    split <;> rfl
  have slots (x) (hx : x ∈ s.ring.slots) : x = Slot.vacant := by
    rw [cleared] at hx
    exact List.eq_of_mem_replicate hx
  refine ⟨by rw [cleared]; rfl, by rw [cleared]; decide, by rw [cleared]; decide, by rw [cleared]; decide,
    by rw [cleared]; rfl, ?_, ?_, fun x hx => slots x hx ▸ vacant_fits, by rw [cleared]; rfl, ?_, ?_, ?_⟩
  · intro k _ queued
    rw [State.ahead, empty] at queued
    cases queued
  · intro k _
    rw [State.ahead, empty]
    decide
  · simp [empty, cleared, Ring.cleared, Slot.vacant]
  · simp [cleared, Ring.cleared]
  · intro _ x hx
    rw [slots x hx]
    rfl

/-- A cleared lot table beside an empty home store fits (R100, R119). -/
theorem lotsFit_of_cleared {s : State} (home : s.home = []) (table : ∀ e ∈ s.table, e = LotEntry.cleared) : s.LotsFit := by
  have names (e) (he : e ∈ s.table) : e.names = [] := by rw [table e he]; rfl
  refine ⟨?_, ?_, by simp [home], ?_, ?_, by simp [home], ?_, fun _ => ⟨home, table⟩⟩
  · rw [List.flatMap_eq_nil_iff.2 names]
    exact List.nodup_nil
  · intro e he lot hl
    rw [names e he] at hl
    cases hl
  all_goals
    intro e he
    rw [table e he]
    exact nofun

theorem reset_lotsFit : State.reset.LotsFit := lotsFit_of_cleared rfl fun _ he => List.eq_of_mem_replicate he

/-- Settles O4. -/
theorem invariantsAtReset : Obligations.InvariantsAtReset :=
  ⟨reset_inRange, reset_blocksAgree, ringFits_of_cleared rfl, List.nodup_nil, reset_lotsFit⟩

/-! ### Every step -/

/-- A full reset leaves the reset state but for the queue, the response and the hold of RSTN (R180, R181). -/
theorem exec_full {c : Instr} {s t : State} (h : exec c s = .next t) (full : c.isFullReset = true) :
    (∃ q r b, t = { State.reset with pending := q, response := r, held := b }) ∨ ∃ r, t = { s with response := r } := by
  cases c with
  | resetFull =>
    cases h
    exact State.exchange_induction
      (P := fun t => (∃ q r b, t = { State.reset with pending := q, response := r, held := b }) ∨
        ∃ r, t = { s with response := r })
      s _ _ (fun r => .inr ⟨r, rfl⟩) fun _ _ => .inl ⟨_, _, _, rfl⟩
  | powerOnReset => cases h; exact .inl ⟨_, _, _, rfl⟩
  | _ => cases full

/-- An invariant that the reset state has, that does not speak of queue, response and hold, and that every command but a
full reset keeps, is kept by every step. -/
theorem invariant_of_commands {P : State → Prop} (reset : ∀ q r b, P { State.reset with pending := q, response := r, held := b })
    (port : ∀ s q r, P s → P { s with pending := q, response := r }) (tick : ∀ s, P s → P s.tick)
    (command : ∀ c s t, exec c s = .next t → c.isFullReset = false → P s → P t) {s t : State} (h : step s = .next t)
    (hs : P s) : P t := by
  refine step_induction (P := fun s t => P s → P t) h (fun _ => tick s) (fun c rest _ u hu _ => ?_) hs
  have waiting : P { s with pending := rest } := port s rest s.response hs
  cases full : c.isFullReset with
  | false => exact command c _ u hu full waiting
  | true =>
    obtain ⟨q, r, b, rfl⟩ | ⟨r, rfl⟩ := exec_full hu full
    · exact reset q r b
    · exact port s rest r hs

/-- Settles O5: every operation keeps the ranges, and so does every step. -/
theorem rangesKeptByEveryStep : Obligations.RangesKeptByEveryStep := fun _ _ hs h =>
  invariant_of_commands (P := State.InRange) (fun _ _ _ => reset_inRange) (fun _ _ _ => id) (fun s => (Keeps.tick (named := []) s).ranges)
    (fun _ _ _ h full => (exec_keeps h full).ranges) h hs

/-- Settles O6: every operation keeps the agreement, the line's through `LineKeeps`, and so does every step. -/
theorem blocksAgreeAfterEveryStep : Obligations.BlocksAgreeAfterEveryStep := fun _ _ hs h =>
  invariant_of_commands (P := State.BlocksAgree) (fun _ _ _ => reset_blocksAgree) (fun _ _ _ => id)
    (fun s => (Keeps.tick (named := []) s).blocks) (fun _ _ _ h full => (exec_keeps h full).blocks) h hs

/-- Settles O9. -/
theorem duplicateLeftByFullResetsAlone : Obligations.DuplicateLeftByFullResetsAlone :=
  fun _ _ _ agree duplicate h full => (exec_keeps h full).duplicate agree duplicate

/-- Settles O10: no code is named but by a CLEAR. -/
theorem flagsClearedByClearAndFullResetsAlone : Obligations.FlagsClearedByClearAndFullResetsAlone := by
  intro c s t f h full notClear
  have none : namedCodes c = [] := by
    unfold namedCodes
    split
    · exact absurd rfl (notClear _)
    · rfl
  exact (exec_keeps h full).flags f (by simp [none])

/-- Settles O12. -/
theorem oneConfigurationThroughout : Obligations.OneConfigurationThroughout := fun _ _ _ agree h full =>
  have keeps := exec_keeps h full
  ⟨keeps.configuration agree, keeps.store agree, keeps.sequence agree⟩

end Sys2Proof.Machine
end

section
/-! The terminal commands that read the station, submit, clear, are refused or reset it: each is the exchange's own part on
a station whose state takes it (R59, R60, R93, R118, R172 to R183). -/

namespace Sys2Proof.Machine

/-- Settles O1. -/
theorem stepRunsFrontCommand : Obligations.StepRunsFrontCommand := fun _ _ _ => rfl

/-- Settles O2. -/
theorem idleStepCountsOneMillisecond : Obligations.IdleStepCountsOneMillisecond := by
  intro s idle
  refine ⟨s.tick, by rw [step, idle], ?_⟩
  simp [State.tick, Timer.tick, Config.minuteTime, idle]

/-- Settles O3: the slots, the entries and the presence records are copies of one. -/
theorem resetValues : Obligations.ResetValues := by
  have slots : ∀ x ∈ State.reset.ring.slots, x = ⟨.empty, none, none, none, none, none, none⟩ :=
    fun _ h => List.eq_of_mem_replicate h
  have entries : ∀ e ∈ State.reset.table, e.state = .free ∧ e.lot = none ∧ e.waiting = [] := fun _ h => by
    rw [List.eq_of_mem_replicate h]; exact ⟨rfl, rfl, rfl⟩
  have presence : ∀ p ∈ State.reset.line.presence, p = ⟨false, none⟩ := fun _ h => List.eq_of_mem_replicate h
  refine ⟨rfl, rfl, rfl, rfl, rfl, rfl, rfl, rfl, rfl, slots, rfl, rfl, rfl, rfl, rfl, rfl, entries, rfl, rfl, rfl, rfl,
    rfl, rfl, presence, ?_⟩
  decide

/-! ### What the table of R175 takes -/

/-- COLLECT, PEEK, WITHDRAW, CLEAR and RESET FULL are taken in every state but LOADING (R175). -/
theorem availability_of_not_loading {c : PortCommand} {st : StationState} (notLoading : st ≠ .loading)
    (hc : c = .collect ∨ c = .peek ∨ c = .withdraw ∨ c = .clearSummary ∨ c = .resetFull) : availability c st = none := by
  obtain rfl | rfl | rfl | rfl | rfl := hc <;> cases st <;> first | rfl | exact absurd rfl notLoading

theorem availability_status (st : StationState) : availability .status st = none := by cases st <;> rfl

theorem availability_lotView {s : State} (service : s.inService = true) : availability .lotView s.station = none := by
  obtain h | h | h := (Keeps.inService_iff s).1 service <;> rw [h] <;> rfl

theorem availability_of_loading {c : PortCommand} (hc : c ≠ .status) : availability c .loading = some .busy := by
  cases c <;> first | rfl | exact absurd rfl hc

theorem withSlot_inRange {s : State} {i : Nat} (action : State → State) (h : i < 8) : withSlot s i action = action s :=
  if_pos h

theorem withSlot_outOfRange {s : State} {i : Nat} (action : State → State) (h : 8 ≤ i) :
    withSlot s i action = s.answer (badArg 4 0) := if_neg (Nat.not_lt.2 h)

section
variable {s : State} {i : Nat}

theorem exec_collect_taken (running : s.held = false) (notLoading : s.station ≠ .loading) (h : i < 8) :
    exec (.collect i) s = .next (s.collectSlot i) :=
  congrArg _ ((State.exchange_taken _ running (availability_of_not_loading notLoading (by simp))).trans
    (withSlot_inRange _ h))

theorem exec_peek_taken (running : s.held = false) (notLoading : s.station ≠ .loading) (h : i < 8) :
    exec (.peek i) s = .next (s.answer (ok (.slot (s.slotView i)))) :=
  congrArg _ ((State.exchange_taken _ running (availability_of_not_loading notLoading (by simp))).trans
    (withSlot_inRange _ h))

theorem exec_withdraw_taken (running : s.held = false) (notLoading : s.station ≠ .loading) (h : i < 8) :
    exec (.withdraw i) s = .next (s.withdrawSlot i) :=
  congrArg _ ((State.exchange_taken _ running (availability_of_not_loading notLoading (by simp))).trans
    (withSlot_inRange _ h))

end

/-! ### Reading the station -/

/-- A port that does not receive shows no station present (R147, R178). -/
theorem receives_and (l : LineState) (b : Bool) : (b && l.receives) = if l = .off then false else b := by
  cases l <;> simp [LineState.receives]

/-- Settles O38. -/
theorem statusReportsTheStation : Obligations.StatusReportsTheStation := by
  intro s running
  have taken : exec .status s = .next (s.answer (ok (.status s.statusView))) :=
    congrArg _ (State.exchange_taken _ running (availability_status _))
  rw [taken]
  cases store : s.store <;> simp [State.answer, ok, State.statusView, State.edition, State.tariff, store, receives_and]

theorem slotView_link (s : State) (i : Nat) :
    ((s.slot i).link = none → (s.slotView i).pieceIndex = 0 ∧ (s.slotView i).memberCount = 0) ∧
    (∀ l, (s.slot i).link = some l → (s.slotView i).pieceIndex = l.piece ∧
      ((s.slot i).tag ≠ .grouped → (s.slotView i).memberCount = l.members.length) ∧
      ((s.slot i).tag = .grouped → ∀ c, s.ring.consignment = some c → (s.slotView i).memberCount = c.members.length)) := by
  refine ⟨fun h => by simp [State.slotView, State.memberCount, h], fun l h => ⟨by simp [State.slotView, h], fun tag => ?_,
    fun tag c opened => ?_⟩⟩
  · simp [State.slotView, State.memberCount, h, tag]
  · simp [State.slotView, State.memberCount, h, tag, opened]

/-- Outcome and reason of a DONE slot, from its screen result or its label record (R74). -/
theorem viewOutcome_complete {x : Slot} (done : x.tag = .complete) :
    (∀ l, x.screenResult = none → x.label = some l →
      x.viewOutcome.1 = (if l.refusal = none then .labelled else .refused) ∧ x.viewOutcome.2 = l.refusal) ∧
    (∀ r, x.screenResult = some r →
      (r.outcome = .applied → x.viewOutcome.1 = .applied) ∧ (∀ w, r.outcome = .rejected w → x.viewOutcome.1 = .rejected) ∧
      (r.outcome = .withdrawn → x.viewOutcome.1 = .refused ∧ x.viewOutcome.2 = some .withdrawn)) := by
  refine ⟨fun l noScreen label => ?_, fun r screen => ⟨fun h => ?_, fun w h => ?_, fun h => ?_⟩⟩
  · cases h : l.refusal <;> simp [Slot.viewOutcome, done, noScreen, label, h]
  all_goals simp [Slot.viewOutcome, done, screen, h]

/-- Settles O34. -/
theorem peekShowsTheSlot : Obligations.PeekShowsTheSlot := by
  intro s i running notLoading inRange
  refine ⟨s.slotView i, exec_peek_taken running notLoading inRange, rfl, ?_, ?_, ?_, (slotView_link s i).1,
    (slotView_link s i).2, ?_, viewOutcome_complete⟩
  · exact fun h => by simp [State.slotView, Slot.kindAndTag, h]
  · exact fun p h => by simp [State.slotView, Slot.kindAndTag, h]
  · exact fun r h => by simp [State.slotView, Slot.kindAndTag, h]
  · exact fun h => by simp [State.slotView, Slot.viewOutcome, h]

/-- Settles O40: home record, entry, incoming lot, in that order. -/
theorem lotViewShowsTheRecord : Obligations.LotViewShowsTheRecord := by
  intro s lot running service
  refine ⟨s.lotView lot, congrArg _ (State.exchange_taken _ running (availability_lotView service)), fun noPlan => ?_,
    fun planned => ?_⟩
  · simp [State.lotView, noPlan, LotView.nothing]
  obtain ⟨d, plan⟩ := Option.ne_none_iff_exists'.1 planned
  refine ⟨fun r home => ?_, fun noHome => ⟨fun k entry => ?_, fun noEntry => ⟨fun k c inc carries => ?_, fun noInc => ?_⟩⟩⟩
  · have view : s.lotView lot = r.view := by simp [State.lotView, plan, home]
    rw [view]
    refine ⟨rfl, rfl, rfl, rfl, rfl, ?_, ?_, ?_⟩ <;> intro state <;> simp [HomeRecord.view, HomeRecord.shown, *]
    all_goals obtain h | h := state <;> simp [h]
  · have now : s.unreachableNow (s.entry k) = decide (∃ u, (s.entry k).unreachable = some u ∧ s.timebase < u) := by
      cases h : (s.entry k).unreachable <;> simp [State.unreachableNow, h]
    simp [State.lotView, plan, noHome, entry, State.entryView, now]
  · simp [State.lotView, plan, noHome, noEntry, inc, carries, Incoming.view]
  · simp [State.lotView, plan, noHome, noEntry, noInc, LotView.nothing]

/-! ### SUBMIT, COLLECT and CLEAR -/

theorem exec_submit_taken {s : State} (r : Submission) (running : s.held = false) (ready : s.station = .ready) :
    exec (.submit r) s = .next (s.submitTaken r) :=
  congrArg _ (State.exchange_taken _ running (by rw [ready]; rfl))

theorem hasRoom_iff (s : State) : s.hasRoom = true ↔ (s.slot s.ring.put).tag = .empty ∧ s.ring.pendingCount < 8 := by
  rw [State.hasRoom, Bool.and_eq_true, beq_iff_eq, decide_eq_true_iff]
  exact Iff.rfl

/-- A constant written by `modify` is a `set`. -/
theorem modify_const {α : Type} (l : List α) (i : Nat) (a : α) : l.modify i (fun _ => a) = l.set i a := by
  refine List.ext_getElem (by simp) fun k _ _ => ?_
  rw [List.getElem_modify, List.getElem_set]

/-- Settles O32. -/
theorem submitPlacesOrAnswersFull : Obligations.SubmitPlacesOrAnswersFull := by
  intro s c r running ready hc
  have taken : exec c s = .next (s.submitRecord r) := by
    obtain ⟨p, rfl, rfl⟩ | ⟨q, rfl, rfl⟩ := hc <;> exact exec_submit_taken _ running ready
  rw [taken, State.submitRecord, ← hasRoom_iff]
  refine ⟨fun room => ?_, fun full => by rw [if_neg full]; rfl⟩
  rw [if_pos room, State.place, modify_const]
  rfl

theorem length_emptySlots (s : State) (is : List Nat) : (s.emptySlots is).ring.slots.length = s.ring.slots.length :=
  (SlotStep.emptySlots s is).length

/-- Emptied are the DONE slots of the list, and no others (R73). -/
theorem slot_emptySlots (s : State) (is : List Nat) (j : Nat) :
    (s.emptySlots is).slot j = if j ∈ is ∧ (s.slot j).tag = .complete then Slot.vacant else s.slot j := by
  induction is generalizing s with
  | nil => simp [State.emptySlots]
  | cons i is ih =>
    have first : (s.updateSlot i (fun x => if x.tag = .complete then Slot.vacant else x)).slot j =
        if j = i ∧ (s.slot j).tag = .complete then Slot.vacant else s.slot j := by
      rw [slot_updateSlot]
      by_cases h : j = i
      · subst h
        by_cases inRing : j < s.ring.slots.length
        · simp [inRing]
        · simp [inRing, LotStep.slot_of_ge s j inRing, Slot.vacant]
      · simp [h]
    rw [State.emptySlots, List.foldl_cons]
    refine (ih _).trans ?_
    rw [first]
    by_cases done : (s.slot j).tag = .complete
    · by_cases h : j = i
      · simp [← h, done]
      · simp [h, done]
    · simp [done]

/-- Settles O33. -/
theorem collectReturnsAndEmpties : Obligations.CollectReturnsAndEmpties := by
  intro s i running notLoading inRange members
  rw [exec_collect_taken running notLoading inRange, State.collectSlot]
  refine ⟨fun done whole => ?_, fun notDone => by rw [if_neg notDone]; rfl⟩
  rw [if_pos done]
  refine ⟨_, rfl, fun j => ?_, fun r screen => ?_, fun noScreen => ?_, ?_⟩
  · show (s.emptySlots members).slot j = _
    rw [slot_emptySlots]
    by_cases member : j ∈ members
    · rw [if_pos ⟨member, whole j member⟩, if_pos member]
      rfl
    · rw [if_neg (fun h => member h.1), if_neg member]
  · simp [State.answer, State.collected, screen, ok]
  · show some (ok (s.collected i)) = _
    rw [State.collected, noScreen]
    rfl
  · have emptied (is : List Nat) : s.emptySlots is = { s with ring.slots := (s.emptySlots is).ring.slots } := by
      induction is using List.reverseRecOn with
      | nil => rfl
      | append_singleton is i ih =>
        simp only [State.emptySlots, List.foldl_append, List.foldl_cons, List.foldl_nil] at ih ⊢
        rw [ih]
        rfl
    conv_lhs => rw [emptied]
    rfl

theorem exec_clear_taken {s : State} (f : FlagList) (running : s.held = false) (notLoading : s.station ≠ .loading) :
    exec (.clearSummary f) s = .next (s.clearTaken f) :=
  congrArg _ (State.exchange_taken _ running (availability_of_not_loading notLoading (by simp)))

theorem flagsFit_iff (f : FlagList) : FlagsFit f = true ↔ f.count ≤ 16 ∧ ∀ c ∈ f.codes, c ≤ 15 := by
  simp [FlagsFit]

theorem getLsbD_clearCodes (w : BitVec 16) (codes : List Nat) {k : Nat} (hk : k < 16) :
    (clearCodes w codes).getLsbD k = (w.getLsbD k && !codes.contains k) := by
  induction codes generalizing w with
  | nil => simp [clearCodes]
  | cons c codes ih =>
    refine (ih _).trans ?_
    rw [BitVec.getLsbD_and, BitVec.getLsbD_not, BitVec.getLsbD_twoPow, List.contains_cons]
    by_cases h : k = c
    · simp [h]
    · simp [Ne.symm h, hk, beq_eq_false_iff_ne.2 h]

/-- Settles O39. -/
theorem clearReturnsAndClears : Obligations.ClearReturnsAndClears := by
  intro s f running
  refine ⟨fun loading => ?_, fun notLoading count codes => ?_, fun notLoading misfit => ?_⟩
  · exact congrArg _ (State.exchange_refused _ running (by rw [loading]; rfl))
  · rw [exec_clear_taken f running notLoading, State.clearTaken, if_pos ((flagsFit_iff f).2 ⟨count, codes⟩)]
    exact ⟨clearCodes s.unit.summary f.codes, rfl, fun k hk => getLsbD_clearCodes _ _ hk⟩
  · rw [exec_clear_taken f running notLoading, State.clearTaken, if_neg (mt (flagsFit_iff f).1 misfit)]
    rfl

/-! ### Resets and refused commands -/

/-- Settles O43. -/
theorem fullResetsAndTheRiseOfRstn : Obligations.FullResetsAndTheRiseOfRstn := fun _ =>
  ⟨fun running notLoading =>
    congrArg _ (State.exchange_taken _ running (availability_of_not_loading notLoading (by simp))), rfl, rfl⟩

/-- Settles O31. -/
theorem badFramesChangeNothing : Obligations.BadFramesChangeNothing := by
  intro s running
  have unknown (f : UnknownFrame) (h : s.unknownFrame f = s.answer (badArg 1 0)) :
      exec (.unknownCommand f) s = .next (s.answer (badArg 1 0)) := congrArg _ h
  refine ⟨fun k => unknown _ ?_, fun k n => unknown _ ?_, fun a notLoading => ?_, fun k ready => ?_,
    fun i c notLoading outside hc => ?_, rfl, rfl⟩
  · exact if_neg (by simp [running])
  · exact if_neg (by simp [running])
  · have taken : s.unknownFrame (.resetArgument a) = s.answer (badArg 4 0) :=
      State.exchange_taken (c := .resetFull) (fun s => s.answer (badArg 4 0)) running
        (availability_of_not_loading notLoading (by simp))
    exact congrArg _ taken
  · exact exec_submit_taken _ running ready
  · obtain rfl | rfl | rfl := hc
    all_goals exact congrArg _ ((State.exchange_taken _ running (availability_of_not_loading notLoading (by simp))).trans
      (withSlot_outOfRange _ outside))

/-- Settles O30: the table of R175 answers BUSY or STATE. -/
theorem commandsNotTakenAreAnswered : Obligations.CommandsNotTakenAreAnswered := by
  intro c s running
  have refused {p : PortCommand} {code : ResponseCode} {st : StationState} (action : State → State) (hs : s.station = st)
      (h : availability p st = some code) : (.next (s.exchange p action) : Host.Outcome State Fault Refusal) =
        .next { s with response := some ⟨code, .nothing⟩ } :=
    congrArg _ (State.exchange_refused action running (hs ▸ h))
  refine ⟨fun loading port notStatus notDiscarded notCode notLength => ?_, ?_⟩
  · cases c with
    | status => exact absurd rfl notStatus
    | commandDiscarded => exact absurd rfl notDiscarded
    | unknownCommand f =>
      cases f with
      | code k => exact absurd rfl (notCode k)
      | length k n => exact absurd rfl (notLength k n)
      | resetArgument a => exact refused (p := .resetFull) (fun s => s.answer (badArg 4 0)) loading rfl
    | configure | submit | collect | peek | withdraw | clearSummary | lotView | leave | resetWarm | resetFull =>
      exact refused _ loading (by exact rfl)
    | _ => cases port
  · rintro (⟨st, ⟨r, rfl⟩ | ⟨l, rfl⟩ | rfl | rfl⟩ | ⟨st, r, rfl⟩ | ⟨st, ⟨r, rfl⟩ | ⟨r, rfl⟩ | ⟨l, rfl⟩ | rfl⟩ |
      ⟨st | st, ⟨r, rfl⟩ | ⟨r, rfl⟩ | rfl⟩) <;> exact refused _ st (by exact rfl)

/-- Settles O28. -/
theorem loadFaults : Obligations.LoadFaults := by
  intro f s e running loading faults
  have acts : exec (.loadFaults f) s = .next (s.failLoad f) := congrArg _ (State.whenRunning_running _ running)
  rw [acts, State.failLoad, loading, faults]
  rfl

end Sys2Proof.Machine
end

section
/-! Outputs of the port, CONFIGURE, rounding, consignments refused at rating and tracking numbers (R6, R25, R88, R163, R172,
R176, R177, R179, R181). -/

namespace Sys2Proof.Machine

/-! ### ATTN, TDO and the held engine -/

theorem attn_iff (s : State) : s.attn = true ↔
    s.held = false ∧ ((∃ x ∈ s.ring.slots, x.tag = .complete) ∨ s.line.state = .faulted ∨ s.line.state = .duplicate) := by
  simp [State.attn, Ring.asks, or_assoc]

/-- While RSTN is low a port command leaves no response and nothing else happens (R181). -/
theorem exec_held {c : Instr} {s : State} (held : s.held = true) (notReset : c ≠ .powerOnReset) (notRise : c ≠ .rstnRise) :
    (c.fromTerminal = true → exec c s = .next { s with response := none }) ∧
    (c.fromTerminal = false → exec c s = .next s) := by
  have port (p : PortCommand) (action : State → State) :
      (.next (s.exchange p action) : Host.Outcome State Fault Refusal) = .next { s with response := none } :=
    congrArg _ (State.exchange_held action held)
  have engine (action : State → State) : (.next (s.whenRunning action) : Host.Outcome State Fault Refusal) = .next s :=
    congrArg _ (State.whenRunning_held action held)
  cases c with
  | powerOnReset => exact absurd rfl notReset
  | rstnRise => exact absurd rfl notRise
  | commandDiscarded => exact ⟨fun _ => rfl, nofun⟩
  | frameTruncated => exact ⟨nofun, fun _ => rfl⟩
  | unknownCommand f =>
    refine ⟨fun _ => ?_, nofun⟩
    cases f with
    | code k | length k n => exact congrArg Host.Outcome.next (if_pos held)
    | resetArgument a => exact port .resetFull fun s => s.answer (badArg 4 0)
  | configure | submit | collect | peek | withdraw | status | clearSummary | lotView | leave | resetWarm | resetFull =>
    exact ⟨fun _ => port _ _, nofun⟩
  | _ => exact ⟨nofun, fun _ => engine _⟩

theorem tdoByte_idle {s : State} (idle : s.held = true ∨ s.response = none) (k : Nat) : s.tdoByte k = 0xFF := by
  have none : s.dueBytes = [] := by
    unfold State.dueBytes
    obtain h | h := idle <;> rw [h]
    cases s.held <;> rfl
  rw [State.tdoByte, none]
  rfl

/-- Settles O14. -/
theorem attnAndTheHeldEngine : Obligations.AttnAndTheHeldEngine := by
  refine ⟨attn_iff, fun c s => exec_held, fun s k => ⟨fun idle => tdoByte_idle idle k, fun r running due => ?_⟩,
    fun s sent n => ⟨by simp [State.tdo], fun k hk => ?_, fun k hk => ?_⟩⟩
  · have bytes : s.dueBytes = responseBytes r := by rw [State.dueBytes, running, due]
    rw [State.tdoByte, bytes]
    exact ⟨fun hk => by simp [List.getD_eq_getElem?_getD, hk],
      fun hk => by simp [List.getD_eq_getElem?_getD, List.getElem?_eq_none hk, idleFiller]⟩
  · rw [State.tdo, List.getElem?_append_left (by simpa using hk), List.getElem?_replicate, if_pos hk]
    rfl
  · rw [State.tdo, List.getElem?_append_right (by simp)]
    simp [hk]

/-! ### CONFIGURE -/

/-- The first failing field is the first check that is false (R176). -/
theorem failingField_eq_some {r : ConfigRecord} {k : Nat} (fails : (configChecks r)[k]? = some false)
    (passed : ∀ j, j < k → (configChecks r)[j]? = some true) : failingField r = some (k + 1) := by
  have first : (configChecks r).findIdx? (!·) = some k := by
    obtain ⟨inList, check⟩ := List.getElem?_eq_some_iff.1 fails
    refine List.findIdx?_eq_some_iff_getElem.2 ⟨inList, by simp [check], fun j hj => ?_⟩
    have passes := passed j hj
    rw [List.getElem?_eq_getElem (hj.trans inList)] at passes
    simp [Option.some.inj passes]
  rw [failingField, first]
  rfl

/-- Settles O29: the checks of the statement are those the model makes, an opening flag of at most 1 being 0 or 1. -/
theorem configureStoresOrNamesTheBadField : Obligations.ConfigureStoresOrNamesTheBadField := by
  intro r s running unconfigured fields
  have checks : fields = configChecks r := by
    have flag : decide (r.openingFlag ≤ 1) = (r.openingFlag == 0 || r.openingFlag == 1) := by
      rw [Bool.eq_iff_iff]
      simp only [decide_eq_true_eq, Bool.or_eq_true, beq_iff_eq]
      omega
    have mask : decide (r.maskClearing.toNat < 8) = decide (r.maskClearing.toNat ≤ 7) :=
      decide_eq_decide.2 (by omega)
    simp only [fields, configChecks, flag, mask]
    rfl
  have taken : exec (.configure r) s = .next (s.configureTaken r) :=
    congrArg _ (State.exchange_taken _ running (by rw [unconfigured]; rfl))
  rw [checks, taken, State.configureTaken]
  refine ⟨fun k fails passed => ?_, fun passes => ?_⟩
  · rw [failingField_eq_some fails passed]
    rfl
  · rw [(Keeps.failingField_eq_none_iff r).2 passes]
    rfl

/-! ### Rounding -/

theorem roundBy_mul (m : RoundingMode) (n q : Nat) :
    roundBy m n q * q = q * (n / q) + if roundsUp m n q = true then q else 0 := by
  unfold roundBy
  split <;> simp [Nat.mul_comm, Nat.mul_add]

/-- Settles O17: `n` is its quotient times `q` and a remainder below `q`, and each mode asks the remainder alone whether it
takes the next number. -/
theorem roundingByMode : Obligations.RoundingByMode := by
  intro n q hq
  have whole : q * (n / q) + n % q = n := Nat.div_add_mod n q
  have below : n % q < q := Nat.mod_lt n hq
  refine ⟨?_, ?_, ?_, ?_, fun tie => ?_, fun m even => ?_⟩
  · simp only [roundBy_mul, roundsUp, Bool.false_eq_true, if_false]
    omega
  · simp only [roundBy_mul, roundsUp, decide_eq_true_eq]
    split_ifs <;> omega
  · simp only [roundBy_mul, roundsUp, decide_eq_true_eq]
    split_ifs <;> omega
  · simp only [roundBy_mul, roundsUp, Bool.or_eq_true, Bool.and_eq_true, beq_iff_eq, decide_eq_true_eq]
    split_ifs <;> omega
  · simp only [roundBy, roundsUp, Bool.or_eq_true, Bool.and_eq_true, beq_iff_eq, decide_eq_true_eq]
    split_ifs <;> omega
  · have stays : roundsUp m n q = false := by
      cases m <;> simp [roundsUp, even] <;> omega
    rw [roundBy_mul, stays]
    simpa [even] using whole

/-! ### A consignment refused at rating -/

/-- The reason of a refusal at rating is one of the four (R82). -/
theorem rateRecord_refusal {t : Tariff} {sc : Screen} {masks : RatingMasks} {n : Option Nat} {p : ParcelRecord} {why : Reason}
    (h : (rateRecord t sc masks n p).1.refusal = some why) :
    why = .invalid ∨ why = .noService ∨ why = .restricted ∨ why = .overflow := by
  have stages (r : RateSection) (z : ZoneEntry) (zone : Nat) (b : Bool)
      (h : (rateStages t masks r z zone b n p).refusal = some why) : why = .overflow := by
    unfold rateStages at h
    dsimp only at h
    split at h
    · split at h
      · cases h
      · exact (Option.some.inj h).symm
    · cases h
  unfold rateRecord at h
  split at h
  · exact .inl (Option.some.inj h).symm
  · dsimp only at h
    split at h
    · split at h
      · exact .inr (.inr (.inl (Option.some.inj h).symm))
      · exact .inr (.inr (.inr (stages _ _ _ _ h)))
    · exact .inr (.inl (Option.some.inj h).symm)

/-- Settles O19, by induction on the pieces: the first that is refused is the offender, and a piece before it stands before
the refused rest. -/
theorem oneOffenderInARefusedConsignment : Obligations.OneOffenderInARefusedConsignment := by
  intro t sc masks n ps
  induction ps with
  | nil => intro rs fs h; cases h
  | cons p ps ih =>
    intro rs fs h
    rw [ratePieces] at h
    cases rated : rateRecord t sc masks (some n) p with
    | mk r gs =>
      rw [rated] at h
      dsimp only at h
      cases refused : r.refusal with
      | some why =>
        rw [refused] at h
        cases h
        refine ⟨by simp, 0, by simp, nofun, ⟨p, r, fs, why, rfl, rated, rfl, refused, rateRecord_refusal (by rw [rated]; exact refused)⟩, ?_⟩
        intro i hi inList
        obtain ⟨i, rfl⟩ := Nat.exists_eq_succ_of_ne_zero hi.ne'
        have inRest : i < ps.length := Nat.lt_of_succ_lt_succ inList
        simp [inRest]
      | none =>
        rw [refused] at h
        cases rest : ratePieces t sc masks n ps with
        | mk results more =>
          obtain ⟨more, whole⟩ := more
          rw [rest] at h
          simp only [Option.isSome_none, Bool.false_eq_true, if_false, Prod.mk.injEq] at h
          obtain ⟨rfl, rfl, rfl⟩ := h
          obtain ⟨length, k, hk, before, offender, after⟩ := ih results more rest
          refine ⟨by simp [length], k + 1, by simpa using hk, fun i x hi hx => ?_, by simpa using offender, fun i hi inList => ?_⟩
          · cases i with
            | zero =>
              cases hx
              exact ⟨r, gs, rated, refused, rfl⟩
            | succ i => exact before i x (Nat.lt_of_succ_lt_succ hi) (by simpa using hx)
          · obtain ⟨i, rfl⟩ := Nat.exists_eq_succ_of_ne_zero (Nat.ne_zero_of_lt hi)
            simpa using after i (Nat.lt_of_succ_lt_succ hi) (by simpa using inList)

/-! ### Tracking numbers -/

theorem trackingNumber_length (c : Configuration) (n : Nat) (two : c.networkPrefix.length = 2) :
    (trackingNumber c n).length = 13 := by
  simp [trackingNumber, numberDigits, two]

/-- Settles O22: the sequence is read back from five of the characters. -/
theorem trackingNumbersDiffer : Obligations.TrackingNumbersDiffer := by
  intro c m n two hm hn
  refine ⟨trackingNumber_length c m two, fun same => ?_⟩
  have sequence (k : Nat) : ((trackingNumber c k).drop 7).take 5 = toDigits 5 k := by
    have front : (c.networkPrefix ++ (toDigits 3 c.day ++ toDigits 2 c.stationNumber)).length = 7 := by simp [two]
    have shape : trackingNumber c k = (c.networkPrefix ++ (toDigits 3 c.day ++ toDigits 2 c.stationNumber)) ++
        (toDigits 5 k ++ toDigits 1 (checkDigit (numberDigits c k))) := by
      simp [trackingNumber, numberDigits]
    rw [shape, List.drop_left' front, List.take_left' (toDigits_length 5 k)]
  have digits : toDigits 5 m = toDigits 5 n := by rw [← sequence, ← sequence, same]
  calc m = ofDigits (toDigits 5 m) := (ofDigits_toDigits_of_lt hm).symm
    _ = ofDigits (toDigits 5 n) := by rw [digits]
    _ = n := ofDigits_toDigits_of_lt hn

end Sys2Proof.Machine
end

section
/-! Flags set and members completed: what a list of completions does to slots and counters, said once, and each of the
model's folds of completions as one such list (R72, R81, R88, R91, R92, R94, R166, R168). -/

namespace Sys2Proof.Machine

/-! ### Flags -/

theorem Flag.code_inj {f g : Flag} : f.code = g.code ↔ f = g := by
  refine ⟨fun h => ?_, fun h => h ▸ rfl⟩
  cases f <;> cases g <;> first | rfl | cases h

theorem Flag.code_lt (f : Flag) : f.code < 16 := by cases f <;> decide

theorem flagSet_setFlag (w : BitVec 16) (f g : Flag) : flagSet (setFlag w f) g = (flagSet w g || decide (g = f)) := by
  rw [flagSet, setFlag, BitVec.getLsbD_or, BitVec.getLsbD_twoPow]
  simp [flagSet, f.code_lt, eq_comm, Flag.code_inj]

theorem setExactly_refl (w : BitVec 16) : SetExactly w w [] := fun _ => by simp

theorem setExactly_setFlag (w : BitVec 16) (f : Flag) : SetExactly w (setFlag w f) [f] := fun g => by
  rw [flagSet_setFlag]
  simp

theorem SetExactly.trans {u v w : BitVec 16} {fs gs : List Flag} (h : SetExactly u v fs) (k : SetExactly v w gs) :
    SetExactly u w (fs ++ gs) := fun f => by
  rw [k f, h f]
  simp [Bool.or_assoc]

theorem setExactly_raiseAll (s : State) (fs : List Flag) : SetExactly s.unit.summary (s.raiseAll fs).unit.summary fs := by
  induction fs generalizing s with
  | nil => exact setExactly_refl _
  | cons f fs ih => exact (setExactly_setFlag s.unit.summary f).trans (ih (s.raise f))

/-- Raising flags changes the summary alone. -/
theorem raiseAll_eq (s : State) (fs : List Flag) : s.raiseAll fs = { s with unit.summary := (s.raiseAll fs).unit.summary } := by
  induction fs generalizing s with
  | nil => rfl
  | cons f fs ih => exact (ih (s.raise f)).trans rfl

@[simp] theorem raiseAll_slot (s : State) (fs : List Flag) (j : Nat) : (s.raiseAll fs).slot j = s.slot j := by
  rw [raiseAll_eq]
  rfl

/-! ### One completion -/

/-- A refused completion writes the label record of R91. -/
theorem refusedAs_completed (x : Slot) (p : ParcelRecord) (d : Option DispatchFields) (why : Reason) :
    Slot.RefusedAs x (x.completed p d (.refused why)) why :=
  ⟨rfl, rfl, rfl, rfl, _, rfl, rfl, rfl, rfl, rfl, rfl, rfl, by simp [formLabel, errorSummary, Completion.reason]⟩

/-- The slot is one the engine owns and holds a parcel. -/
def State.OwnsParcel (s : State) (i : Nat) (p : ParcelRecord) : Prop :=
  (s.slot i).engineOwns = true ∧ (s.slot i).record = some (.parcel p)

theorem ownsParcel_of_seeking {s : State} {i : Nat} {p : ParcelRecord} (seeking : (s.slot i).tag = .seeking)
    (record : (s.slot i).record = some (.parcel p)) : s.OwnsParcel i p := ⟨by simp [Slot.engineOwns, seeking], record⟩

theorem ownsParcel_of_queued {s : State} {i : Nat} {p : ParcelRecord} (queued : (s.slot i).tag = .queued)
    (record : (s.slot i).record = some (.parcel p)) : s.OwnsParcel i p := ⟨by simp [Slot.engineOwns, queued], record⟩

/-- The counters after a completion (R94). -/
def RatingUnit.counting (u : RatingUnit) : Completion → RatingUnit
  | .labelled _ _ => { u with labelsIssued := countUp u.labelsIssued }
  | .refused _ => { u with recordsRefused := countUp u.recordsRefused }

/-- A completion of a parcel that the engine owns, as one update (R72, R94). -/
theorem completeParcel_eq {s : State} {i : Nat} {p : ParcelRecord} (owns : s.OwnsParcel i p) (d : Option DispatchFields)
    (c : Completion) : s.completeParcel i d c =
      { s with
        ring := { s.ring with slots := s.ring.slots.modify i (fun x => x.completed p d c) }
        unit := s.unit.counting c } := by
  rw [State.completeParcel, owns.1, owns.2]
  cases c <;> rfl

theorem slot_completeParcel_self {s : State} {i : Nat} {p : ParcelRecord} (owns : s.OwnsParcel i p)
    (d : Option DispatchFields) (c : Completion) : (s.completeParcel i d c).slot i = (s.slot i).completed p d c := by
  rw [slot_completeParcel s i i d c p owns.1 owns.2, if_pos rfl]

theorem slot_completeParcel_other (s : State) {i j : Nat} (d : Option DispatchFields) (c : Completion) (h : j ≠ i) :
    (s.completeParcel i d c).slot j = s.slot j := by
  unfold State.completeParcel
  split
  · cases c <;> exact (slot_updateSlot s i j _).trans (if_neg fun k => h k.1)
  · rfl

/-! ### A list of completions -/

/-- A completion to come: the slot, its dispatch fields, and how it ends. -/
abbrev Completing := Nat × Option DispatchFields × Completion

/-- Completions one after another. -/
def State.completeAll (s : State) (l : List Completing) : State :=
  l.foldl (fun s x => s.completeParcel x.1 x.2.1 x.2.2) s

theorem completeAll_cons (s : State) (x : Completing) (l : List Completing) :
    s.completeAll (x :: l) = (s.completeParcel x.1 x.2.1 x.2.2).completeAll l := rfl

/-- Distinct slots, each an owned parcel's. -/
structure State.MayComplete (s : State) (l : List Completing) : Prop where
  nodup : (l.map (·.1)).Nodup
  parcels : ∀ x ∈ l, ∃ p, s.OwnsParcel x.1 p

theorem State.MayComplete.tail {s : State} {x : Completing} {l : List Completing} (h : s.MayComplete (x :: l)) :
    (s.completeParcel x.1 x.2.1 x.2.2).MayComplete l := by
  obtain ⟨fresh, nodup⟩ := List.nodup_cons.1 h.nodup
  refine ⟨nodup, fun y hy => ?_⟩
  have other : y.1 ≠ x.1 := fun e => fresh (List.mem_map.2 ⟨y, hy, e⟩)
  obtain ⟨p, owns⟩ := h.parcels y (List.mem_cons_of_mem x hy)
  exact ⟨p, by rwa [State.OwnsParcel, slot_completeParcel_other s _ _ other]⟩

theorem slot_completeAll_other (s : State) (l : List Completing) {j : Nat} (h : j ∉ l.map (·.1)) :
    (s.completeAll l).slot j = s.slot j := by
  induction l generalizing s with
  | nil => rfl
  | cons x l ih =>
    rw [List.map_cons, List.mem_cons, not_or] at h
    rw [completeAll_cons, ih _ h.2, slot_completeParcel_other s _ _ h.1]

theorem slot_completeAll {s : State} {l : List Completing} (h : s.MayComplete l) {x : Completing} (hx : x ∈ l) :
    ∃ p, (s.slot x.1).record = some (.parcel p) ∧ (s.completeAll l).slot x.1 = (s.slot x.1).completed p x.2.1 x.2.2 := by
  induction l generalizing s with
  | nil => cases hx
  | cons y l ih =>
    have fresh := (List.nodup_cons.1 h.nodup).1
    rw [completeAll_cons]
    obtain rfl | hx := List.mem_cons.1 hx
    · obtain ⟨p, owns⟩ := h.parcels x List.mem_cons_self
      exact ⟨p, owns.2, by rw [slot_completeAll_other _ _ fresh, slot_completeParcel_self owns]⟩
    · obtain ⟨p, record, slot⟩ := ih h.tail hx
      have other : x.1 ≠ y.1 := fun e => fresh (List.mem_map.2 ⟨x, hx, e⟩)
      rw [slot_completeParcel_other s _ _ other] at record slot
      exact ⟨p, record, slot⟩

/-- Slots apart, completions change the counters alone, one event each. -/
theorem completeAll_eq {s : State} {l : List Completing} (h : s.MayComplete l) :
    s.completeAll l = { s with
      ring := { s.ring with slots := (s.completeAll l).ring.slots }
      unit := l.foldl (fun u x => u.counting x.2.2) s.unit } := by
  induction l generalizing s with
  | nil => rfl
  | cons x l ih =>
    obtain ⟨p, owns⟩ := h.parcels x List.mem_cons_self
    rw [completeAll_cons, ih h.tail, completeParcel_eq owns]
    rfl

theorem length_completeAll (s : State) (l : List Completing) :
    (s.completeAll l).ring.slots.length = s.ring.slots.length :=
  (SlotStep.foldl _ (fun s _ => SlotStep.completeParcel s _ _ _) l s).length

/-- `n` events of a counter that is in range, or that has one event at least (R94). -/
theorem countUp_iterate {n a : Nat} (h : a ≤ 65535 ∨ 0 < n) : countUp^[n] a = min (a + n) 65535 := by
  induction n generalizing a with
  | zero => simpa using (h.resolve_right (Nat.lt_irrefl 0))
  | succ n ih =>
    have top : countUp a ≤ 65535 := Nat.min_le_right _ _
    rw [Function.iterate_succ_apply, ih (.inl top)]
    simp only [countUp, Config.counterTop]
    omega

theorem counting_refused (u : RatingUnit) {l : List Completing} (h : ∀ x ∈ l, ∃ why, x.2.2 = .refused why) :
    l.foldl (fun u x => u.counting x.2.2) u = { u with recordsRefused := countUp^[l.length] u.recordsRefused } := by
  induction l generalizing u with
  | nil => rfl
  | cons x l ih =>
    obtain ⟨why, hx⟩ := h x List.mem_cons_self
    rw [List.foldl_cons, ih _ fun y hy => h y (List.mem_cons_of_mem x hy), hx]
    rfl

theorem counting_labelled (u : RatingUnit) {l : List Completing} (h : ∀ x ∈ l, ∃ a b, x.2.2 = .labelled a b) :
    l.foldl (fun u x => u.counting x.2.2) u = { u with labelsIssued := countUp^[l.length] u.labelsIssued } := by
  induction l generalizing u with
  | nil => rfl
  | cons x l ih =>
    obtain ⟨a, b, hx⟩ := h x List.mem_cons_self
    rw [List.foldl_cons, ih _ fun y hy => h y (List.mem_cons_of_mem x hy), hx]
    rfl

/-! ### The model's folds of completions -/

/-- Members all refused alike. -/
def refusals (members : List Nat) (d : Option DispatchFields) (why : Reason) : List Completing :=
  members.map (fun i => (i, d, .refused why))

@[simp] theorem refusals_slots (members : List Nat) (d : Option DispatchFields) (why : Reason) :
    (refusals members d why).map (·.1) = members := by simp [refusals, Function.comp_def]

@[simp] theorem refusals_length (members : List Nat) (d : Option DispatchFields) (why : Reason) :
    (refusals members d why).length = members.length := by simp [refusals]

theorem refuseMembers_eq (s : State) (members : List Nat) (d : Option DispatchFields) (why : Reason) :
    s.refuseMembers members d why = s.completeAll (refusals members d why) := by
  simp [State.refuseMembers, State.completeAll, refusals, List.foldl_map]

/-- Members that are all SEEKING parcels, each once (R71, R88). -/
structure State.AllSeeking (s : State) (members : List Nat) : Prop where
  nodup : members.Nodup
  seeking : ∀ i ∈ members, (s.slot i).tag = .seeking ∧ ∃ p, (s.slot i).record = some (.parcel p)

theorem State.AllSeeking.tail {s t : State} {i : Nat} {members : List Nat} (h : s.AllSeeking (i :: members))
    (same : ∀ j, j ≠ i → t.slot j = s.slot j) : t.AllSeeking members := by
  obtain ⟨fresh, nodup⟩ := List.nodup_cons.1 h.nodup
  refine ⟨nodup, fun j hj => ?_⟩
  rw [same j fun e => fresh (e ▸ hj)]
  exact h.seeking j (List.mem_cons_of_mem i hj)

theorem State.AllSeeking.mayComplete {s : State} {members : List Nat} (h : s.AllSeeking members) {l : List Completing}
    (slots : l.map (·.1) = members) : s.MayComplete l := by
  refine ⟨slots ▸ h.nodup, fun x hx => ?_⟩
  obtain ⟨tag, p, record⟩ := h.seeking x.1 (slots ▸ List.mem_map_of_mem hx)
  exact ⟨p, ownsParcel_of_seeking tag record⟩

theorem completeSeeking_of_seeking {s : State} {i : Nat} (h : (s.slot i).tag = .seeking) (d : Option DispatchFields)
    (c : Completion) : s.completeSeeking i d c = s.completeParcel i d c := if_pos h

theorem refuseSeeking_eq {s : State} {members : List Nat} (h : s.AllSeeking members) (d : Option DispatchFields)
    (why : Reason) : s.refuseSeeking members d why = s.completeAll (refusals members d why) := by
  induction members generalizing s with
  | nil => rfl
  | cons i members ih =>
    have first := completeSeeking_of_seeking (h.seeking i List.mem_cons_self).1 d (.refused why)
    have rest : (s.completeParcel i d (.refused why)).AllSeeking members :=
      h.tail fun j hj => slot_completeParcel_other s d _ hj
    calc s.refuseSeeking (i :: members) d why
      _ = (s.completeSeeking i d (.refused why)).refuseSeeking members d why := rfl
      _ = (s.completeParcel i d (.refused why)).refuseSeeking members d why := by rw [first]
      _ = (s.completeParcel i d (.refused why)).completeAll (refusals members d why) := ih rest

/-- Members numbered from `seq` on (R166, R168). -/
def labellings (c : Configuration) (d : DispatchFields) (consignment : Bytes) : Nat → List Nat → List Completing
  | _, [] => []
  | seq, i :: is => (i, some d, .labelled (trackingNumber c seq) consignment) :: labellings c d consignment (seq + 1) is

@[simp] theorem labellings_slots (c : Configuration) (d : DispatchFields) (t : Bytes) (seq : Nat) (members : List Nat) :
    (labellings c d t seq members).map (·.1) = members := by
  induction members generalizing seq with
  | nil => rfl
  | cons i is ih => rw [labellings, List.map_cons, ih]

@[simp] theorem labellings_length (c : Configuration) (d : DispatchFields) (t : Bytes) (seq : Nat) (members : List Nat) :
    (labellings c d t seq members).length = members.length := by
  rw [← List.length_map (f := (·.1)), labellings_slots]

/-- The `k`th member is labelled with the `k`th number on from the first. -/
theorem labellings_getElem? (c : Configuration) (d : DispatchFields) (t : Bytes) (seq : Nat) (members : List Nat) (k : Nat) :
    (labellings c d t seq members)[k]? = members[k]?.map (fun i => (i, some d, .labelled (trackingNumber c (seq + k)) t)) := by
  induction members generalizing seq k with
  | nil => rfl
  | cons i is ih =>
    cases k with
    | zero => rfl
    | succ k =>
      rw [labellings, List.getElem?_cons_succ, ih, List.getElem?_cons_succ, Nat.add_right_comm, Nat.add_assoc]

theorem labellings_labelled (c : Configuration) (d : DispatchFields) (t : Bytes) (seq : Nat) (members : List Nat) :
    ∀ x ∈ labellings c d t seq members, ∃ a b, x.2.2 = .labelled a b := by
  intro x hx
  obtain ⟨k, hk⟩ := List.getElem?_of_mem hx
  rw [labellings_getElem?, Option.map_eq_some_iff] at hk
  obtain ⟨i, -, rfl⟩ := hk
  exact ⟨_, _, rfl⟩

theorem completeParcel_config (s : State) (i : Nat) (d : Option DispatchFields) (c : Completion) :
    (s.completeParcel i d c).config = s.config := by
  rw [State.config, State.config, (SlotStep.completeParcel s i d c).outside.2.2.2.1]

theorem labelMembers_eq {s : State} {members : List Nat} (h : s.AllSeeking members) (d : DispatchFields) (t : Bytes)
    (seq : Nat) : s.labelMembers d t seq members = s.completeAll (labellings s.config d t seq members) := by
  induction members generalizing s seq with
  | nil => rfl
  | cons i members ih =>
    have first := completeSeeking_of_seeking (h.seeking i List.mem_cons_self).1 (some d)
      (.labelled (trackingNumber s.config seq) t)
    have rest : (s.completeParcel i (some d) (.labelled (trackingNumber s.config seq) t)).AllSeeking members :=
      h.tail fun j hj => slot_completeParcel_other s _ _ hj
    rw [State.labelMembers, first, ih rest, labellings, completeAll_cons, completeParcel_config]

/-! ### Refused members -/

/-- What refusals leave: each member refused with its link kept, every other slot as it was, one event of the counter for
each, nothing else touched. -/
structure State.Refuses (s t : State) (members : List Nat) (why : Reason) : Prop where
  refused : ∀ i ∈ members, Slot.RefusedAs (s.slot i) (t.slot i) why ∧ (t.slot i).link = (s.slot i).link
  others : ∀ j, j ∉ members → t.slot j = s.slot j
  rest : t = { s with
    ring := { s.ring with slots := t.ring.slots }
    unit := { s.unit with recordsRefused := countUp^[members.length] s.unit.recordsRefused } }
  length : t.ring.slots.length = s.ring.slots.length

theorem State.Refuses.unit {s t : State} {members : List Nat} {why : Reason} (h : s.Refuses t members why) :
    t.unit = { s.unit with recordsRefused := countUp^[members.length] s.unit.recordsRefused } := congrArg State.unit h.rest

theorem State.Refuses.ring {s t : State} {members : List Nat} {why : Reason} (h : s.Refuses t members why) :
    t.ring = { s.ring with slots := t.ring.slots } := congrArg State.ring h.rest

theorem refuses_completeAll {s : State} {members : List Nat} {d : Option DispatchFields} {why : Reason}
    (h : s.MayComplete (refusals members d why)) : s.Refuses (s.completeAll (refusals members d why)) members why where
  refused i hi := by
    obtain ⟨p, -, slot⟩ := slot_completeAll h (x := (i, d, .refused why)) (List.mem_map_of_mem hi)
    rw [slot]
    exact ⟨refusedAs_completed _ _ _ _, rfl⟩
  others j hj := slot_completeAll_other s _ (by rwa [refusals_slots])
  rest := by
    have counted := counting_refused s.unit (l := refusals members d why) (by simp [refusals])
    rw [refusals_length] at counted
    rw [← counted]
    exact completeAll_eq h
  length := length_completeAll _ _

theorem refuses_refuseSeeking {s : State} {members : List Nat} (h : s.AllSeeking members) (d : Option DispatchFields)
    (why : Reason) : s.Refuses (s.refuseSeeking members d why) members why := by
  rw [refuseSeeking_eq h]
  exact refuses_completeAll (h.mayComplete (refusals_slots _ _ _))

/-! ### Labelled members -/

/-- Settles O23: the members' completions are one list, its numbers consecutive from the counter's value. -/
theorem membersNumberedInRingOrder : Obligations.MembersNumberedInRingOrder := by
  intro s q d n counter nodup seeking
  have all : s.AllSeeking q.members := ⟨nodup, seeking⟩
  have may := all.mayComplete (labellings_slots s.config d (s.consignmentNumber q n) n q.members)
  have labelled : s.labelRequest q d =
      (s.completeAll (labellings s.config d (s.consignmentNumber q n) n q.members)).advanceSequence q.members.length := by
    rw [State.labelRequest, counter, ← labelMembers_eq all]
    rfl
  have whole := completeAll_eq may
  rw [labelled]
  refine ⟨?_, ?_, fun j hj => ?_, fun k i hk => ?_⟩
  · rw [State.advanceSequence, whole]
    simp [counter]
  · show (s.completeAll _).unit.labelsIssued = _
    rw [whole, counting_labelled _ (labellings_labelled _ _ _ _ _), labellings_length]
    show countUp^[_] _ = _
    split
    case isTrue empty => rw [empty]; rfl
    case isFalse some' => exact countUp_iterate (.inr (List.length_pos_iff.2 some'))
  · exact slot_completeAll_other s _ (by rwa [labellings_slots])
  · have member := labellings_getElem? s.config d (s.consignmentNumber q n) n q.members k
    rw [hk] at member
    obtain ⟨p, -, slot⟩ := slot_completeAll may (List.mem_of_getElem? member)
    have slot' : ((s.completeAll (labellings s.config d (s.consignmentNumber q n) n q.members)).advanceSequence
      q.members.length).slot i = _ := slot
    rw [slot']
    exact ⟨rfl, rfl, _, rfl, rfl, rfl, rfl⟩

end Sys2Proof.Machine
end

section
/-! The ring's commands and the rate position on one slot and on the open consignment: WITHDRAW, the watchdog, a parcel
refused at rating, a screen record (R50 to R54, R61 to R63, R70, R75 to R78). -/

namespace Sys2Proof.Machine

/-! ### Links and the open consignment -/

theorem slot_linkMembers_other (s : State) (all : List Nat) (piece : Nat) (is : List Nat) {j : Nat} (h : j ∉ is) :
    (s.linkMembers all piece is).slot j = s.slot j := by
  induction is generalizing s piece with
  | nil => rfl
  | cons i is ih =>
    rw [List.mem_cons, not_or] at h
    rw [State.linkMembers, ih _ _ h.2, slot_updateSlot, if_neg fun k => h.1 k.1]

/-- The `k`th member on gets the link of the `k`th piece on (R57). -/
theorem slot_linkMembers (s : State) (all : List Nat) (piece : Nat) {is : List Nat} (nodup : is.Nodup) {k j : Nat}
    (member : is[k]? = some j) (inRing : j < s.ring.slots.length) :
    (s.linkMembers all piece is).slot j = { s.slot j with link := some ⟨all, piece + k⟩ } := by
  induction is generalizing s piece k with
  | nil => cases member
  | cons i is ih =>
    obtain ⟨fresh, nodup⟩ := List.nodup_cons.1 nodup
    rw [State.linkMembers]
    cases k with
    | zero =>
      cases member
      rw [slot_linkMembers_other _ _ _ _ fresh, slot_updateSlot, if_pos ⟨rfl, inRing⟩]
      rfl
    | succ k =>
      have rest : is[k]? = some j := member
      have other : j ≠ i := fun e => fresh (e ▸ List.mem_of_getElem? rest)
      rw [ih _ _ nodup rest (by rwa [length_updateSlot]), slot_updateSlot, if_neg fun h => other h.1,
        Nat.add_right_comm, Nat.add_assoc]

theorem linkMembers_eq (s : State) (all : List Nat) (piece : Nat) (is : List Nat) : s.linkMembers all piece is =
    { s with ring := { s.ring with slots := (s.linkMembers all piece is).ring.slots } } := by
  induction is generalizing s piece with
  | nil => rfl
  | cons i is ih =>
    rw [State.linkMembers, ih]
    rfl

theorem linkMembers_unit (s : State) (all : List Nat) (piece : Nat) (is : List Nat) :
    (s.linkMembers all piece is).unit = s.unit := by rw [linkMembers_eq]

/-- Slots that each hold a parcel the engine owns, none named twice (R57, R58). -/
structure State.OwnsParcels (s : State) (members : List Nat) : Prop where
  nodup : members.Nodup
  parcels : ∀ i ∈ members, ∃ p, s.OwnsParcel i p

theorem State.OwnsParcels.linked {s : State} {members : List Nat} (h : s.OwnsParcels members) (all : List Nat) (piece : Nat) :
    (s.linkMembers all piece members).OwnsParcels members := by
  refine ⟨h.nodup, fun i hi => ?_⟩
  obtain ⟨p, owned, record⟩ := h.parcels i hi
  obtain ⟨k, hk⟩ := List.getElem?_of_mem hi
  refine ⟨p, ?_⟩
  rw [State.OwnsParcel, slot_linkMembers s all piece h.nodup hk (lt_of_engineOwns owned)]
  exact ⟨owned, record⟩

theorem State.OwnsParcels.mayComplete {s : State} {members : List Nat} (h : s.OwnsParcels members)
    (d : Option DispatchFields) (why : Reason) : s.MayComplete (refusals members d why) := by
  refine ⟨by simpa using h.nodup, fun x hx => ?_⟩
  obtain ⟨i, hi, rfl⟩ := List.mem_map.1 hx
  exact h.parcels i hi

/-- A consignment refused whole (R62, R70, R76): what each member, the counters and the ring become. -/
theorem refuseConsignment_spec {s : State} {members : List Nat} (h : s.OwnsParcels members) (some' : members ≠ [])
    (why : Reason) (flag : Flag) :
    State.ConsignmentRefused s (s.refuseConsignment members why flag) members why flag ∧
    (s.refuseConsignment members why flag).ring =
      { s.ring with
        slots := (s.refuseConsignment members why flag).ring.slots, consignment := none, watchdog := none } ∧
    (s.refuseConsignment members why flag).ring.slots.length = s.ring.slots.length := by
  have refuses := refuses_completeAll ((h.linked members 1).mayComplete none why)
  rw [← refuseMembers_eq] at refuses
  have slots (j : Nat) : (s.refuseConsignment members why flag).slot j =
      ((s.linkMembers members 1 members).refuseMembers members none why).slot j := rfl
  have unit : (s.refuseConsignment members why flag).unit =
      { s.unit with
        recordsRefused := countUp^[members.length] s.unit.recordsRefused, summary := setFlag s.unit.summary flag } := by
    have counted := refuses.unit
    rw [linkMembers_unit] at counted
    exact congrArg (fun u : RatingUnit => { u with summary := setFlag u.summary flag }) counted
  have step := (SlotStep.linkMembers s members members 1).trans (SlotStep.refuseMembers _ members none why)
  refine ⟨⟨fun k j hk => ?_, fun j hj => ?_, rfl, rfl, by rw [unit], by rw [unit], ?_, ?_⟩, ?_, step.length⟩
  · have hj := List.mem_of_getElem? hk
    obtain ⟨p, owned, -⟩ := h.parcels j hj
    obtain ⟨refused, link⟩ := refuses.refused j hj
    rw [slot_linkMembers s members 1 h.nodup hk (lt_of_engineOwns owned)] at refused link
    rw [slots]
    exact ⟨refused, by rw [link, Nat.add_comm]⟩
  · rw [slots, refuses.others j hj, slot_linkMembers_other _ _ _ _ hj]
  · rw [unit]
    exact countUp_iterate (.inr (List.length_pos_iff.2 some'))
  · rw [unit]
    exact setExactly_setFlag _ _
  · exact congrArg (fun r : Ring => { r with consignment := none, watchdog := none }) step.ring

/-- The members of the open consignment are its GROUPED slots, each a parcel's (R57, R69). -/
theorem ownsParcels_of_consignment {s : State} (fits : s.RingFits) {c : Consignment} (opened : s.ring.consignment = some c) :
    s.OwnsParcels c.members ∧ c.members ≠ [] ∧ (∀ i ∈ c.members, (s.slot i).tag = .grouped) ∧
      (∀ i ∈ c.members, i < s.ring.slots.length) := by
  obtain ⟨-, -, -, -, -, -, -, slots, -, grouped, members, -⟩ := fits
  obtain ⟨some', -, nodup⟩ := members c opened
  have tag (i) (hi : i ∈ c.members) : (s.slot i).tag = .grouped := (grouped i).2 ⟨c, opened, hi⟩
  have owned (i) (hi : i ∈ c.members) : (s.slot i).engineOwns = true := by simp [Slot.engineOwns, tag i hi]
  have inRing (i) (hi : i ∈ c.members) := lt_of_engineOwns (owned i hi)
  refine ⟨⟨nodup, fun i hi => ?_⟩, some', tag, inRing⟩
  have isSlot : s.slot i ∈ s.ring.slots := by
    rw [State.slot, List.getD_eq_getElem _ _ (inRing i hi)]
    exact List.getElem_mem _
  obtain ⟨p, record⟩ := (slots _ isSlot).2.2.2 (.inl (tag i hi))
  exact ⟨p, owned i hi, record⟩

/-- Settles O36: WITHDRAW of a GROUPED slot and the watchdog's expiry are one refusal, for different reasons. -/
theorem openConsignmentRefusedWhole : Obligations.OpenConsignmentRefusedWhole := by
  intro s c running fits opened
  obtain ⟨owns, some', grouped, inRing⟩ := ownsParcels_of_consignment fits opened
  have spec (why : Reason) (flag : Flag) := refuseConsignment_spec owns some' why flag
  have outside (why : Reason) (flag : Flag) := refuseConsignment_outside s c.members why flag
  refine ⟨fun i hi notLoading => ?_, ?_⟩
  · have eight : i < 8 := fits.1 ▸ inRing i hi
    have withdrawn : s.withdrawSlot i = (s.refuseConsignment c.members .withdrawn .withdrawn).answer (ok .nothing) := by
      simp only [State.withdrawSlot, grouped i hi, State.withdrawGrouped, opened]
    rw [exec_withdraw_taken running notLoading eight, withdrawn]
    exact ⟨_, rfl, rfl, (spec _ _).1, (outside .withdrawn .withdrawn).1, (spec .withdrawn .withdrawn).2.1⟩
  · have runs : s.ring.watchdog.isSome = true := by
      obtain ⟨-, -, -, -, -, -, -, -, watchdog, -⟩ := fits
      rw [watchdog, opened]
      rfl
    obtain ⟨w, watchdog⟩ := Option.isSome_iff_exists.1 runs
    have expired : exec .watchdogExpires s =
        .next (s.refuseConsignment c.members .consignmentIncomplete .consignmentIncomplete) := by
      refine congrArg _ ((State.whenRunning_running _ running).trans ?_)
      rw [State.watchdogExpiry, watchdog, opened]
    rw [expired]
    exact ⟨_, rfl, (outside _ _).2, (spec _ _).1, (outside _ _).1,
      (spec .consignmentIncomplete .consignmentIncomplete).2.1⟩

/-! ### WITHDRAW of a QUEUED and of a SEEKING slot -/

theorem completeScreen_parcel {s : State} {i : Nat} {p : ParcelRecord} (record : (s.slot i).record = some (.parcel p))
    (o : ScreenOutcome) : s.completeScreen i o = s := by
  rw [State.completeScreen, record]
  cases (s.slot i).engineOwns <;> rfl

theorem completeParcel_screen {s : State} {i : Nat} {q : ScreenRecord} (record : (s.slot i).record = some (.screen q))
    (d : Option DispatchFields) (c : Completion) : s.completeParcel i d c = s := by
  rw [State.completeParcel, record]
  cases (s.slot i).engineOwns <;> rfl

/-- A screen record's completion, as one update (R50, R94). -/
theorem completeScreen_eq {s : State} {i : Nat} {q : ScreenRecord} (owned : (s.slot i).engineOwns = true)
    (record : (s.slot i).record = some (.screen q)) (o : ScreenOutcome) : s.completeScreen i o =
      { s with
        ring.slots := s.ring.slots.modify i fun x =>
          { x with tag := .complete, screenResult := some ⟨q.terminalTag, o⟩ }
        unit := if o = .withdrawn then s.unit.counting (.refused .withdrawn) else s.unit } := by
  rw [State.completeScreen, owned, record]
  dsimp only
  split <;> rfl

/-- A slot the engine owns, changed in place. -/
theorem modify_eq_set {l : List Slot} {i : Nat} (h : i < l.length) (f : Slot → Slot) :
    l.modify i f = l.set i (f (l.getD i Slot.vacant)) := by
  have read : l.getD i Slot.vacant = l[i] := List.getD_eq_getElem _ _ h
  rw [read]
  refine List.ext_getElem (by simp) fun k _ _ => ?_
  rw [List.getElem_modify, List.getElem_set]
  split
  case isTrue e => subst e; rfl
  case isFalse => rfl

theorem engineOwns_of_queued {x : Slot} (h : x.tag = .queued) : x.engineOwns = true := by simp [Slot.engineOwns, h]

theorem slot_eq_getD (s : State) (i : Nat) : s.ring.slots.getD i Slot.vacant = s.slot i := rfl

/-- A refused completion counts one record (R94). -/
theorem completeParcel_refused {s : State} {i : Nat} {p : ParcelRecord} (owns : s.OwnsParcel i p)
    (d : Option DispatchFields) (why : Reason) : s.Refuses (s.completeParcel i d (.refused why)) [i] why := by
  have one : s.MayComplete (refusals [i] d why) :=
    ⟨by simp [refusals], fun x hx => by
      obtain rfl : x = (i, d, .refused why) := by simpa [refusals] using hx
      exact ⟨p, owns⟩⟩
  exact refuses_completeAll one

/-- Settles O35. -/
theorem withdrawOfOneSlot : Obligations.WithdrawOfOneSlot := by
  intro s i running notLoading inRange
  rw [exec_withdraw_taken running notLoading inRange]
  refine ⟨fun tag => ?_, fun queued r record => ?_⟩
  · obtain tag | tag := tag <;> simp only [State.withdrawSlot, tag] <;> rfl
  have withdrawn : s.withdrawSlot i = (s.withdrawQueued i).answer (ok .nothing) := by
    simp only [State.withdrawSlot, queued]
  rw [withdrawn]
  have outside := (SlotStep.withdrawQueued s i).outside
  cases r with
  | parcel p =>
    have refuses := completeParcel_refused (ownsParcel_of_queued queued record) none .withdrawn
    have left : (s.completeParcel i none (.refused .withdrawn)).completeScreen i .withdrawn =
        s.completeParcel i none (.refused .withdrawn) :=
      completeScreen_parcel (p := p) ((refuses.refused i List.mem_cons_self).1.2.1.trans record) _
    have same : s.withdrawQueued i = (s.completeParcel i none (.refused .withdrawn)).raise .withdrawn := by
      rw [State.withdrawQueued, left]
    rw [same] at outside ⊢
    refine ⟨_, rfl, rfl, fun p' _ => (refuses.refused i List.mem_cons_self).1, (fun _ e => by cases e),
      fun j hj => refuses.others j (by simpa using hj), refuses.ring, ?_, ?_, ?_, ?_, outside⟩
    · exact (congrArg RatingUnit.recordsRefused refuses.unit).trans rfl
    · exact (congrArg RatingUnit.labelsIssued refuses.unit).trans rfl
    · exact (congrArg RatingUnit.framesRejected refuses.unit).trans rfl
    · have summary : (s.completeParcel i none (.refused .withdrawn)).unit.summary = s.unit.summary :=
        (congrArg RatingUnit.summary refuses.unit).trans rfl
      exact summary ▸ setExactly_setFlag _ _
  | screen q =>
    have same : s.withdrawQueued i = (s.completeScreen i .withdrawn).raise .withdrawn := by
      rw [State.withdrawQueued, completeParcel_screen record]
    have completed := completeScreen_eq (engineOwns_of_queued queued) record .withdrawn
    rw [if_pos rfl] at completed
    rw [same, completed] at outside ⊢
    refine ⟨_, rfl, rfl, nofun, fun q' e => ?_, fun j hj => ?_, rfl, ?_, rfl, rfl,
      setExactly_setFlag s.unit.summary .withdrawn, outside⟩
    · cases e
      exact (slot_updateSlot s i i _).trans (if_pos ⟨rfl, lt_of_engineOwns (engineOwns_of_queued queued)⟩)
    · exact (slot_updateSlot s i j _).trans (if_neg fun h => hj h.1)
    · exact countUp_iterate (n := 1) (.inr Nat.one_pos)

/-- Settles O37: the slot's request is dropped from every list, then its members are refused. -/
theorem withdrawOfASeekingSlot : Obligations.WithdrawOfASeekingSlot := by
  intro s i running notLoading inRange seeking members nodup parcels kept
  have drops (qs : List Request) : dropMember i qs = kept qs := by
    simp only [dropMember, kept, List.contains_eq_mem, decide_not]
  have all : (s.dropRequest i).AllSeeking members := ⟨nodup, parcels⟩
  have refuses := refuses_refuseSeeking all none .withdrawn
  have withdrawn : s.withdrawSlot i =
      (((s.dropRequest i).refuseSeeking members none .withdrawn).raise .withdrawn).answer (ok .nothing) := by
    simp only [State.withdrawSlot, seeking]
    rfl
  rw [exec_withdraw_taken running notLoading inRange, withdrawn]
  have rest {α : Type} (f : State → α) : f ((s.dropRequest i).refuseSeeking members none .withdrawn) = f _ :=
    congrArg f refuses.rest
  refine ⟨_, rfl, rfl, fun j hj => (refuses.refused j hj).1, refuses.others, refuses.ring, ?_, ?_, ?_,
    (congrArg RatingUnit.labelsIssued refuses.unit).trans rfl, rest State.line, rest State.sequence, rest State.station,
    rest State.configuration, rest State.store, rest State.screen, rest State.clock⟩
  · refine (rest State.home).trans ?_
    simp only [State.dropRequest, drops]
  · refine (rest State.table).trans ?_
    simp only [State.dropRequest, drops]
  · have summary : ((s.dropRequest i).refuseSeeking members none .withdrawn).unit.summary = s.unit.summary :=
      (congrArg RatingUnit.summary refuses.unit).trans rfl
    exact summary ▸ setExactly_setFlag _ _

/-! ### The rate position -/

/-- The station with one record more taken, as the taken record finds it (R61; log entry 21). -/
def State.counted (s : State) : State := { s with ring.takings := s.ring.takings + 1 }

theorem exec_ratePosition {s : State} {t : Tariff} {i : Nat} {r : Record} (h : s.AboutToTake t i r) :
    exec .ratePositionActs s = .next (s.counted.takeRecord t i r).advanceRate := by
  obtain ⟨running, ready, store, rfl, pending, queued, record⟩ := h
  refine congrArg _ ((State.whenRunning_running _ running).trans ?_)
  have tariff : s.tariff = some t := by rw [State.tariff, store]
  rw [State.ratePosition, ready, tariff]
  dsimp only
  rw [if_pos pending, State.rateAct, queued, record]
  rfl

theorem endOpenConsignment_none {s : State} (none : s.ring.consignment = none) : s.endOpenConsignment = s := by
  rw [State.endOpenConsignment, none]

/-- A parcel of no piece mark of a consignment, with none open, is rated alone (R63). -/
theorem takeRecord_alone {s : State} {t : Tariff} {i : Nat} {p : ParcelRecord} (notFirst : p.pieceMark ≠ 1)
    (notMiddle : p.pieceMark ≠ 2) (notLast : p.pieceMark ≠ 3) (none : s.ring.consignment = none) :
    s.takeRecord t i (.parcel p) = s.rateAlone t i p := by
  simp only [State.takeRecord]
  rw [endOpenConsignment_none none]

theorem slot_writeRating (s : State) (i j : Nat) (r : Option RatingResult) : (s.writeRating i r).slot j =
    if j = i ∧ i < s.ring.slots.length then { s.slot i with rating := r } else s.slot j := slot_updateSlot s i j _

/-- A rating event: the result written, its flags raised (R2, R81). -/
def State.ratedAt (s : State) (i : Nat) (r : RatingResult) (fs : List Flag) : State :=
  (s.writeRating i (some r)).raiseAll fs

theorem slotStep_ratedAt (s : State) (i : Nat) (r : RatingResult) (fs : List Flag) : SlotStep s (s.ratedAt i r fs) :=
  (SlotStep.updateSlot s i _).trans (SlotStep.raiseAll _ fs)

theorem ratedAt_unit (s : State) (i : Nat) (r : RatingResult) (fs : List Flag) :
    (s.ratedAt i r fs).unit = { s.unit with summary := (s.ratedAt i r fs).unit.summary } :=
  congrArg State.unit (raiseAll_eq (s.writeRating i (some r)) fs)

theorem setExactly_ratedAt (s : State) (i : Nat) (r : RatingResult) (fs : List Flag) :
    SetExactly s.unit.summary (s.ratedAt i r fs).unit.summary fs := setExactly_raiseAll (s.writeRating i (some r)) fs

theorem slot_ratedAt {s : State} {i : Nat} (inRing : i < s.ring.slots.length) (r : RatingResult) (fs : List Flag) (j : Nat) :
    (s.ratedAt i r fs).slot j = if j = i then { s.slot i with rating := some r } else s.slot j := by
  rw [State.ratedAt, raiseAll_slot, slot_writeRating]
  exact if_congr (and_iff_left inRing) rfl rfl

/-- The rating of a parcel alone that is refused (R63). -/
theorem rateAlone_refused {s : State} {t : Tariff} {i : Nat} {p : ParcelRecord} {r : RatingResult} {fs : List Flag}
    {why : Reason} (rated : rateRecord t s.activeScreen s.ratingMasks none p = (r, fs)) (refused : r.refusal = some why) :
    s.rateAlone t i p = (s.ratedAt i r fs).completeParcel i none (.refused why) := by
  rw [State.rateAlone, rated]
  simp only [refused]
  rfl

/-- Settles O44: the rating is written, its flags are raised, and the slot is refused for its reason. -/
theorem singleRefusedAtRating : Obligations.SingleRefusedAtRating := by
  intro s t i p r fs why takes notFirst notMiddle notLast none rated refused
  rw [exec_ratePosition takes, takeRecord_alone (s := s.counted) notFirst notMiddle notLast none,
    rateAlone_refused (s := s.counted) rated refused]
  obtain ⟨running, ready, store, rate, pending, queued, record⟩ := takes
  have slots := slot_ratedAt (s := s.counted) (lt_of_engineOwns (engineOwns_of_queued queued)) r fs
  have owns : (s.counted.ratedAt i r fs).OwnsParcel i p := by
    rw [State.OwnsParcel, slots, if_pos rfl]
    exact ⟨engineOwns_of_queued queued, record⟩
  have refuses := completeParcel_refused owns Option.none why
  have step := (slotStep_ratedAt s.counted i r fs).trans (SlotStep.completeParcel _ i Option.none (.refused why))
  have unit := refuses.unit
  rw [ratedAt_unit] at unit
  have refusedSlot := (refuses.refused i List.mem_cons_self).1
  rw [slots, if_pos rfl] at refusedSlot
  refine ⟨_, rfl, refusedSlot, fun j hj => ?_, ⟨?_, ?_, ?_, step.length⟩, ?_, ?_, ?_, ?_, ?_, ?_, step.response,
    step.outside⟩
  · exact (refuses.others j (by simpa using hj)).trans ((slots j).trans (if_neg hj))
  · exact (congrArg Ring.put step.ring).trans rfl
  · exact (congrArg (nextPosition ·.rate) step.ring).trans rfl
  · exact congrArg (·.pendingCount - 1) step.ring
  · exact (congrArg Ring.consignment step.ring).trans none
  · exact (congrArg Ring.watchdog step.ring).trans rfl
  · exact (congrArg RatingUnit.recordsRefused unit).trans rfl
  · exact (congrArg RatingUnit.labelsIssued unit).trans rfl
  · exact (congrArg RatingUnit.framesRejected unit).trans rfl
  · exact congrArg RatingUnit.summary refuses.unit ▸ setExactly_ratedAt s.counted i r fs

end Sys2Proof.Machine
end

section
/-! A screen record at the rate position: its checks in order, and the slot passed when it holds none to take (R50 to R53,
R61). -/

namespace Sys2Proof.Machine

/-- An entry that passes the two checks of R51. -/
def ScreenEntry.Good (e : ScreenEntry) : Prop :=
  (e.length = 3 ∨ e.length = 6) ∧ ∀ b ∈ e.characters.take e.length, isDigit b = true

/-- The place an entry names. -/
def ScreenEntry.place (e : ScreenEntry) : Place := ⟨e.length, e.characters.take e.length⟩

theorem checkEntry_good {e : ScreenEntry} (good : ScreenEntry.Good e) (i : Nat) :
    checkEntry i e = .ok (ScreenEntry.place e) := by
  obtain ⟨length, digits⟩ := good
  have known : ¬ (e.length ≠ 3 ∧ e.length ≠ 6) := fun h => length.elim h.1 h.2
  rw [checkEntry, if_neg known, if_pos (List.all_eq_true.2 digits)]
  rfl

theorem checkEntry_badLength {e : ScreenEntry} (i : Nat) (three : e.length ≠ 3) (six : e.length ≠ 6) :
    checkEntry i e = .error (.badLength i) := by
  rw [checkEntry, if_pos ⟨three, six⟩]

theorem checkEntry_badDigit {e : ScreenEntry} (i : Nat) (length : e.length = 3 ∨ e.length = 6)
    (bad : ∃ b ∈ e.characters.take e.length, isDigit b = false) : checkEntry i e = .error (.badDigit i) := by
  obtain ⟨b, hb, notDigit⟩ := bad
  have known : ¬ (e.length ≠ 3 ∧ e.length ≠ 6) := fun h => length.elim h.1 h.2
  have some' : ¬ (e.characters.take e.length).all isDigit = true := fun h => by
    rw [List.all_eq_true.1 h b hb] at notDigit
    cases notDigit
  rw [checkEntry, if_neg known, if_neg some']

theorem checkEntries_good {es : List ScreenEntry} (good : ∀ e ∈ es, ScreenEntry.Good e) (i : Nat) :
    checkEntries i es = .ok (es.map ScreenEntry.place) := by
  induction es generalizing i with
  | nil => rfl
  | cons e es ih =>
    rw [checkEntries, checkEntry_good (good e List.mem_cons_self),
      ih (fun x hx => good x (List.mem_cons_of_mem e hx))]
    rfl

/-- The checks end at the first entry that fails (R51). -/
theorem checkEntries_error {es : List ScreenEntry} {k : Nat} {e : ScreenEntry} {r : RejectReason} (i : Nat)
    (entry : es[k]? = some e) (before : ∀ (j : Nat) (g : ScreenEntry), j < k → es[j]? = some g → ScreenEntry.Good g)
    (fails : checkEntry (i + k) e = .error r) : checkEntries i es = .error r := by
  induction es generalizing i k with
  | nil => cases entry
  | cons x es ih =>
    cases k with
    | zero =>
      cases entry
      rw [checkEntries, show checkEntry i e = .error r from fails]
    | succ k =>
      have first := checkEntry_good (before 0 x (Nat.succ_pos k) rfl) i
      have rest : checkEntries (i + 1) es = .error r :=
        ih (i + 1) entry (fun j g hj hg => before (j + 1) g (Nat.succ_lt_succ hj) hg)
          (by rwa [Nat.add_right_comm, Nat.add_assoc])
      rw [checkEntries, first, rest]

section
variable {b : ScreenBody}

/-- An exact screen record of a good count is judged by its entries alone (R51, R52). -/
theorem checkScreen_places_ok {ps : List Place} (kind : b.kind = 0) (low : 1 ≤ b.count) (high : b.count ≤ 16)
    (entries : checkEntries 0 (b.entries.take b.count) = .ok ps) :
    checkScreen b = .ok (.places (b.inverse != 0) ps) := by
  have count : ¬ (b.count < 1 ∨ 16 < b.count) := by omega
  simp only [checkScreen, kind, if_neg count, entries]

theorem checkScreen_places_error {r : RejectReason} (kind : b.kind = 0) (low : 1 ≤ b.count) (high : b.count ≤ 16)
    (entries : checkEntries 0 (b.entries.take b.count) = .error r) : checkScreen b = .error r := by
  have count : ¬ (b.count < 1 ∨ 16 < b.count) := by omega
  simp only [checkScreen, kind, if_neg count, entries]

theorem checkScreen_badCount (kind : b.kind = 0) (count : b.count < 1 ∨ 16 < b.count) :
    checkScreen b = .error .badCount := by
  simp only [checkScreen, kind, if_pos count]

theorem checkScreen_hashed (kind : b.kind = 1) : checkScreen b = .ok (.hashed b.hashTable) := by
  simp only [checkScreen, kind]

theorem checkScreen_badKind (kind : 2 ≤ b.kind) : checkScreen b = .error .badKind := by
  unfold checkScreen
  split <;> first | rfl | omega

end

/-- The station with the screen record of slot `i` completed and taken (R50, R61). -/
def State.screenDone (s : State) (i tag : Nat) (o : ScreenOutcome) (screen : Option Screen) : State :=
  { s with
    screen := screen
    ring := { s.ring with
      slots := s.ring.slots.set i { s.slot i with tag := .complete, screenResult := some ⟨tag, o⟩ }
      rate := (i + 1) % 8
      pendingCount := s.ring.pendingCount - 1
      takings := s.ring.takings + 1 } }

section
variable {s : State} {t : Tariff} {i : Nat} {q : ScreenRecord}

theorem completeScreen_taken (takes : s.AboutToTake t i (.screen q)) {o : ScreenOutcome} (counted : o ≠ .withdrawn) :
    (s.counted.completeScreen i o).advanceRate = s.screenDone i q.terminalTag o s.screen := by
  obtain ⟨running, ready, store, rate, pending, queued, record⟩ := takes
  have owned := engineOwns_of_queued queued
  have inRing := lt_of_engineOwns owned
  rw [completeScreen_eq (s := s.counted) owned record, if_neg counted]
  have slots := modify_eq_set inRing fun x => { x with tag := .complete, screenResult := some ⟨q.terminalTag, o⟩ }
  simp only [State.advanceRate, State.screenDone, State.counted, slots, slot_eq_getD, nextPosition, rate, Config.slotCount]

/-- A record that passes the checks is applied (R52). -/
theorem exec_screen_applied (takes : s.AboutToTake t i (.screen q)) (none : s.ring.consignment = none) {sc : Screen}
    (passes : checkScreen q.body = .ok sc) :
    exec .ratePositionActs s = .next (s.screenDone i q.terminalTag .applied (some sc)) := by
  have done := completeScreen_taken takes (o := .applied) (by simp)
  have taken : s.counted.takeRecord t i (.screen q) = { s.counted.completeScreen i .applied with screen := some sc } := by
    rw [State.takeRecord, endOpenConsignment_none (s := s.counted) none, State.takeScreen, passes]
  rw [exec_ratePosition takes, taken]
  exact congrArg (fun u : State => Host.Outcome.next { u with screen := some sc }) done

/-- A record that fails a check is rejected, the screen left as it was (R53). -/
theorem exec_screen_rejected (takes : s.AboutToTake t i (.screen q)) (none : s.ring.consignment = none) {r : RejectReason}
    (fails : checkScreen q.body = .error r) :
    exec .ratePositionActs s = .next (s.screenDone i q.terminalTag (.rejected r) s.screen) := by
  have taken : s.counted.takeRecord t i (.screen q) = s.counted.completeScreen i (.rejected r) := by
    rw [State.takeRecord, endOpenConsignment_none (s := s.counted) none, State.takeScreen, fails]
  rw [exec_ratePosition takes, taken, completeScreen_taken takes (o := .rejected r) (by simp)]

end

/-- A DONE or EMPTY slot is passed (R61). -/
theorem exec_ratePosition_passes {s : State} {t : Tariff} {i : Nat} (running : s.held = false) (ready : s.station = .ready)
    (store : s.store = .loaded t) (rate : s.ring.rate = i) (pending : 0 < s.ring.pendingCount)
    (tag : (s.slot i).tag = .complete ∨ (s.slot i).tag = .empty) : exec .ratePositionActs s = .next s.advanceRate := by
  subst rate
  have tariff : s.tariff = some t := by rw [State.tariff, store]
  refine congrArg _ ((State.whenRunning_running _ running).trans ?_)
  rw [State.ratePosition, ready, tariff]
  dsimp only
  rw [if_pos pending, State.rateAct]
  obtain tag | tag := tag <;> rw [tag]

/-- Settles O48: the record's checks in order, each outcome by the first that fails. -/
theorem screenRecordsAppliedOrRejected : Obligations.ScreenRecordsAppliedOrRejected := by
  intro s t i
  refine ⟨fun q takes none => ?_, fun running ready store rate pending tag => ?_⟩
  · intro done good
    refine ⟨fun kind => ?_, fun kind => ?_, fun kind count => ?_, fun kind low high sixteen => ⟨fun all => ?_, ?_⟩⟩
    · exact exec_screen_applied takes none (checkScreen_hashed kind)
    · exact exec_screen_rejected takes none (checkScreen_badKind kind)
    · exact exec_screen_rejected takes none (checkScreen_badCount kind count)
    · exact exec_screen_applied takes none (checkScreen_places_ok kind low high (checkEntries_good all 0))
    · intro k e inCount entry before
      have taken (j : Nat) (h : j < q.body.count) : (q.body.entries.take q.body.count)[j]? = q.body.entries[j]? := by
        rw [List.getElem?_take, if_pos h]
      have rejects {r : RejectReason} (fails : checkEntry (0 + k) e = .error r) :
          exec .ratePositionActs s = .next (done (.rejected r) s.screen) := by
        refine exec_screen_rejected takes none (checkScreen_places_error kind low high ?_)
        refine checkEntries_error 0 ((taken k inCount).trans entry) (fun j g hj hg => before j g hj ?_) fails
        rwa [taken j (hj.trans inCount)] at hg
      rw [Nat.zero_add] at rejects
      exact ⟨fun three six => rejects (checkEntry_badLength k three six),
        fun length bad => rejects (checkEntry_badDigit k length bad)⟩
  · subst rate
    exact exec_ratePosition_passes running ready store rfl pending tag

end Sys2Proof.Machine
end

section
/-! The ring between events (R56, R57, R69, R175) and the DONE slots (R58, R72): what every command keeps. A slot being
taken may be GROUPED or SEEKING while it still stands at the rate position; `RingInv s taken` is the ring with such slots. -/

namespace Sys2Proof.Machine

theorem forall_slots_iff (s : State) (P : Slot → Prop) (vacant : P Slot.vacant) :
    (∀ x ∈ s.ring.slots, P x) ↔ ∀ j, P (s.slot j) := by
  constructor
  · intro all j
    by_cases inRing : j < s.ring.slots.length
    · rw [State.slot, List.getD_eq_getElem _ _ inRing]
      exact all _ (List.getElem_mem _)
    · rwa [LotStep.slot_of_ge s j inRing]
  · intro all x hx
    obtain ⟨j, inRing, rfl⟩ := List.mem_iff_getElem.1 hx
    have h := all j
    rwa [State.slot, List.getD_eq_getElem _ _ inRing] at h

theorem fits_completed {x : Slot} {p : ParcelRecord} (record : x.record = some (.parcel p)) (d : Option DispatchFields)
    (c : Completion) : (x.completed p d c).Fits :=
  ⟨nofun, fun _ => by simp [Slot.completed, record], by simp [Slot.completed], by simp [Slot.completed]⟩

/-- A DONE slot with its record and a label record fits its tag. -/
theorem fits_of_refusedAs {x y : Slot} {why : Reason} (h : x.RefusedAs y why) (record : x.record.isSome = true) : y.Fits := by
  obtain ⟨done, same, -, -, l, label, -⟩ := h
  exact ⟨fun e => (by rw [done] at e; cases e), fun _ => by rwa [same], by simp [done, label],
    fun e => by rw [done] at e; simp at e⟩

/-- A slot kept but for its link and its rating fits its tag, as long as it is not EMPTY. -/
theorem fits_relinked {x : Slot} (h : x.Fits) (some' : x.tag ≠ .empty) (l : Option Link) (r : Option RatingResult) :
    Slot.Fits { x with link := l, rating := r } := by
  obtain ⟨-, record, done, parcel⟩ := h
  exact ⟨fun e => absurd e some', record, done, parcel⟩

/-- The same slot on its way to the lot controller, or into a consignment. -/
theorem fits_turned {x : Slot} (h : x.Fits) {p : ParcelRecord} (record : x.record = some (.parcel p))
    (notDone : x.tag ≠ .complete) {tag : Tag} (turned : tag = .grouped ∨ tag = .seeking) (l : Option Link) :
    Slot.Fits { x with tag := tag, link := l } := by
  obtain ⟨-, -, done, -⟩ := h
  refine ⟨fun e => ?_, fun _ => by simp [record], ?_, fun _ => ⟨p, record⟩⟩
  · obtain rfl | rfl := turned <;> cases e
  · have undone := mt done.2 notDone
    obtain rfl | rfl := turned <;> simpa using undone

/-- The ring as RingFits describes it, apart from the station state, and with slots of `taken` in any tag within the
window. -/
structure RingInv (s : State) (taken : Nat → Prop) : Prop where
  length : s.ring.slots.length = 8
  put : s.ring.put < 8
  rate : s.ring.rate < 8
  count : s.ring.pendingCount ≤ 8
  position : s.ring.put = (s.ring.rate + s.ring.pendingCount) % 8
  queued : ∀ k, k < 8 → (s.ahead k).tag = .queued → k < s.ring.pendingCount
  window : ∀ k, k < s.ring.pendingCount → ¬ taken ((s.ring.rate + k) % 8) →
    (s.ahead k).tag ≠ .grouped ∧ (s.ahead k).tag ≠ .seeking
  fits : ∀ j, (s.slot j).Fits
  watchdog : s.ring.watchdog.isSome = s.ring.consignment.isSome
  grouped : ∀ j, (s.slot j).tag = .grouped ↔ ∃ c, s.ring.consignment = some c ∧ j ∈ c.members
  members : ∀ c, s.ring.consignment = some c → c.members ≠ [] ∧ c.members.length ≤ 7 ∧ c.members.Nodup

theorem ringFits_iff (s : State) :
    s.RingFits ↔ RingInv s (fun _ => False) ∧ (s.station ≠ .ready → ∀ j, (s.slot j).tag = .empty) := by
  rw [State.RingFits, forall_slots_iff s Slot.Fits vacant_fits, forall_slots_iff s (·.tag = .empty) rfl]
  constructor
  · rintro ⟨h1, h2, h3, h4, h5, h6, h7, h8, h9, h10, h11, h12⟩
    exact ⟨⟨h1, h2, h3, h4, h5, h6, fun k hk _ => h7 k hk, h8, h9, h10, h11⟩, h12⟩
  · rintro ⟨⟨h1, h2, h3, h4, h5, h6, h7, h8, h9, h10, h11⟩, h12⟩
    exact ⟨h1, h2, h3, h4, h5, h6, fun k hk => h7 k hk id, h8, h9, h10, h11, h12⟩

namespace RingInv

variable {s t : State} {taken : Nat → Prop}

/-- The invariant moves to a ring of the same positions in which no slot becomes QUEUED, none but those taken becomes
GROUPED or SEEKING within the window, and the open consignment is that of the GROUPED slots. -/
theorem move (h : RingInv s taken) (length : t.ring.slots.length = s.ring.slots.length) (put : t.ring.put = s.ring.put)
    (rate : t.ring.rate = s.ring.rate) (count : t.ring.pendingCount = s.ring.pendingCount)
    (queued : ∀ j, (t.slot j).tag = .queued → (s.slot j).tag = .queued)
    (turned : ∀ j, ¬ taken j → (t.slot j).tag = .grouped ∨ (t.slot j).tag = .seeking →
      (s.slot j).tag = .grouped ∨ (s.slot j).tag = .seeking)
    (fits : ∀ j, (t.slot j).Fits) (watchdog : t.ring.watchdog.isSome = t.ring.consignment.isSome)
    (grouped : ∀ j, (t.slot j).tag = .grouped ↔ ∃ c, t.ring.consignment = some c ∧ j ∈ c.members)
    (members : ∀ c, t.ring.consignment = some c → c.members ≠ [] ∧ c.members.length ≤ 7 ∧ c.members.Nodup) :
    RingInv t taken where
  length := length.trans h.length
  put := put ▸ h.put
  rate := rate ▸ h.rate
  count := count ▸ h.count
  position := by rw [put, rate, count]; exact h.position
  queued k hk tag := by
    rw [count]
    refine h.queued k hk (queued _ ?_)
    rwa [State.ahead, rate] at tag
  window k hk free := by
    rw [count] at hk
    rw [rate] at free
    have before := h.window k hk free
    rw [State.ahead, rate, ← not_or]
    exact fun tag => (turned _ free tag).elim before.1 before.2
  fits := fits
  watchdog := watchdog
  grouped := grouped
  members := members

/-- The lot controller completes SEEKING slots alone. -/
theorem lotStep (h : RingInv s taken) (k : LotStep s t) : RingInv t taken := by
  have tags (j : Nat) : (t.slot j).tag = (s.slot j).tag ∨ ((s.slot j).tag = .seeking ∧ (t.slot j).tag = .complete) := by
    obtain e | ⟨seeking, p, d, c, -, e⟩ := k.slots j
    · exact .inl (congrArg Slot.tag e)
    · exact .inr ⟨seeking, congrArg Slot.tag e⟩
  refine h.move k.slotsLength k.put k.rate k.pendingCount (fun j tag => ?_) (fun j _ tag => ?_) (fun j => ?_)
    (by rw [k.watchdog, k.consignment]; exact h.watchdog) (fun j => ?_) (by rw [k.consignment]; exact h.members)
  · obtain e | ⟨-, e⟩ := tags j
    · rwa [← e]
    · rw [e] at tag; cases tag
  · obtain e | ⟨e, -⟩ := tags j
    · rwa [← e]
    · exact .inr e
  · obtain e | ⟨-, p, d, c, record, e⟩ := k.slots j
    · rw [e]; exact h.fits j
    · rw [e]; exact fits_completed record d c
  · rw [k.consignment, ← h.grouped j]
    obtain e | ⟨e, e'⟩ := tags j
    · rw [e]
    · simp [e, e']

/-- One slot that is not GROUPED completes; nothing else in the ring changes. -/
theorem completes (h : RingInv s taken) {i : Nat} (ring : t.ring = { s.ring with slots := t.ring.slots })
    (length : t.ring.slots.length = s.ring.slots.length) (others : ∀ j, j ≠ i → t.slot j = s.slot j)
    (free : (s.slot i).tag ≠ .grouped) (done : (t.slot i).tag = .complete) (fits : (t.slot i).Fits) :
    RingInv t taken := by
  refine h.move length (by rw [ring]) (by rw [ring]) (by rw [ring]) (fun j tag => ?_) (fun j _ tag => ?_) (fun j => ?_)
    (by rw [ring]; exact h.watchdog) (fun j => ?_) (by rw [ring]; exact h.members)
  all_goals by_cases e : j = i
  · rw [e, done] at tag; cases tag
  · rwa [others j e] at tag
  · rw [e, done] at tag; simp at tag
  · rwa [others j e] at tag
  · exact e ▸ fits
  · rw [others j e]; exact h.fits j
  · have consignment : t.ring.consignment = s.ring.consignment := by rw [ring]
    rw [consignment, ← h.grouped j, e, done]
    simp [free]
  · have consignment : t.ring.consignment = s.ring.consignment := by rw [ring]
    rw [consignment, ← h.grouped j, others j e]

theorem owned (h : RingInv s taken) {i : Nat} (tag : (s.slot i).tag = .grouped ∨ (s.slot i).tag = .seeking) :
    ∃ p, s.OwnsParcel i p := by
  obtain ⟨p, record⟩ := (h.fits i).2.2.2 tag
  obtain tag | tag := tag <;> exact ⟨p, by simp [Slot.engineOwns, tag], record⟩

/-- The members of the open consignment, each a GROUPED slot's parcel. -/
theorem ownsMembers (h : RingInv s taken) {c : Consignment} (opened : s.ring.consignment = some c) :
    s.OwnsParcels c.members :=
  ⟨(h.members c opened).2.2, fun i hi => h.owned (.inl ((h.grouped i).2 ⟨c, opened, hi⟩))⟩

/-- The members with a further parcel that is none of them. -/
theorem ownsMembers_and (h : RingInv s taken) {c : Consignment} (opened : s.ring.consignment = some c) {i : Nat}
    {p : ParcelRecord} (owns : s.OwnsParcel i p) (free : (s.slot i).tag ≠ .grouped) :
    s.OwnsParcels (c.members ++ [i]) := by
  have members := h.ownsMembers opened
  have fresh : i ∉ c.members := fun hi => free ((h.grouped i).2 ⟨c, opened, hi⟩)
  refine ⟨List.nodup_append.2 ⟨members.nodup, List.nodup_singleton i, ?_⟩, fun j hj => ?_⟩
  · rintro j hj _ hi rfl
    exact fresh (List.mem_singleton.1 hi ▸ hj)
  · obtain hj | hj := List.mem_append.1 hj
    · exact members.parcels j hj
    · exact List.mem_singleton.1 hj ▸ ⟨p, owns⟩

/-- The open consignment refused whole, and with it a further parcel of its refusal (R62, R67, R70, R76). -/
theorem refuses (h : RingInv s taken) {c : Consignment} (opened : s.ring.consignment = some c) {is : List Nat}
    (owns : s.OwnsParcels is) (all : ∀ j ∈ c.members, j ∈ is) (why : Reason) (flag : Flag) :
    RingInv (s.refuseConsignment is why flag) taken := by
  have some' : is ≠ [] := by
    obtain ⟨i, hi⟩ := List.exists_mem_of_ne_nil _ (h.members c opened).1
    exact List.ne_nil_of_mem (all i hi)
  obtain ⟨⟨refused, others, consignment, watchdog, -⟩, ring, length⟩ := refuseConsignment_spec owns some' why flag
  have done (j : Nat) (hj : j ∈ is) : (s.slot j).RefusedAs ((s.refuseConsignment is why flag).slot j) why := by
    obtain ⟨k, hk⟩ := List.getElem?_of_mem hj
    exact (refused k j hk).1
  refine h.move length (by rw [ring]) (by rw [ring]) (by rw [ring]) (fun j tag => ?_) (fun j _ tag => ?_) (fun j => ?_)
    (by rw [consignment, watchdog]; rfl) (fun j => ?_) (by rw [consignment]; nofun)
  all_goals by_cases hj : j ∈ is
  · rw [(done j hj).1] at tag; cases tag
  · rwa [others j hj] at tag
  · rw [(done j hj).1] at tag; simp at tag
  · rwa [others j hj] at tag
  · obtain ⟨p, -, record⟩ := owns.parcels j hj
    exact fits_of_refusedAs (done j hj) (by rw [record]; rfl)
  · rw [others j hj]; exact h.fits j
  · rw [(done j hj).1, consignment]; simp
  · rw [others j hj, h.grouped j, consignment, opened]
    simp only [Option.some.injEq, exists_eq_left', reduceCtorEq, false_and, exists_false, iff_false]
    exact fun member => hj (all j member)

theorem endOpenConsignment (h : RingInv s taken) : RingInv s.endOpenConsignment taken := by
  unfold State.endOpenConsignment
  split
  case h_1 c opened => exact h.refuses opened (h.ownsMembers opened) (fun _ => id) _ _
  case h_2 => exact h

end RingInv

/-- Nothing is open after it, and a slot outside the consignment is as it was (R62). -/
theorem endOpenConsignment_spec {s : State} {taken : Nat → Prop} (h : RingInv s taken) :
    s.endOpenConsignment.ring.consignment = none ∧
    (∀ j, (s.slot j).tag ≠ .grouped → s.endOpenConsignment.slot j = s.slot j) ∧
    s.endOpenConsignment.ring.rate = s.ring.rate := by
  unfold State.endOpenConsignment
  split
  case h_1 c opened =>
    obtain ⟨⟨-, others, consignment, -⟩, ring, -⟩ := refuseConsignment_spec (h.ownsMembers opened) (h.members c opened).1
      .consignmentOrder .consignmentOrder
    exact ⟨consignment, fun j free => others j fun hj => free ((h.grouped j).2 ⟨c, opened, hj⟩), by rw [ring]⟩
  case h_2 none => exact ⟨none, fun _ _ => rfl, rfl⟩

/-- The rate position moves on from a slot that is QUEUED no more (R61). -/
theorem RingInv.advance {s : State} (h : RingInv s (· = s.ring.rate)) (notQueued : (s.slot s.ring.rate).tag ≠ .queued)
    (some' : 0 < s.ring.pendingCount) : RingInv s.advanceRate (fun _ => False) where
  length := h.length
  put := h.put
  rate := Keeps.nextPosition_lt _
  count := (Nat.sub_le _ 1).trans h.count
  position := by
    have position := h.position
    simp only [State.advanceRate, nextPosition, Config.slotCount]
    omega
  queued k hk tag := by
    have place : ((s.ring.rate + 1) % 8 + k) % 8 = (s.ring.rate + (k + 1)) % 8 := by omega
    have ahead : s.advanceRate.ahead k = s.slot ((s.ring.rate + (k + 1)) % 8) := by rw [← place]; rfl
    rw [ahead] at tag
    show k < s.ring.pendingCount - 1
    by_cases last : k + 1 = 8
    · have rate := h.rate
      have same : (s.ring.rate + (k + 1)) % 8 = s.ring.rate := by omega
      rw [same] at tag
      exact absurd tag notQueued
    · have := h.queued (k + 1) (by omega) tag
      omega
  window k hk _ := by
    have place : ((s.ring.rate + 1) % 8 + k) % 8 = (s.ring.rate + (k + 1)) % 8 := by omega
    have ahead : s.advanceRate.ahead k = s.slot ((s.ring.rate + (k + 1)) % 8) := by rw [← place]; rfl
    rw [ahead]
    have below : k < s.ring.pendingCount - 1 := hk
    have count := h.count
    have rate := h.rate
    exact h.window (k + 1) (by omega) (by omega)
  fits := h.fits
  watchdog := h.watchdog
  grouped := h.grouped
  members := h.members

end Sys2Proof.Machine
end

section
/-! A consignment that closes (R23, R25, R66): what writing its ratings, seeking its members and refusing them at rating do
to the slots. -/

namespace Sys2Proof.Machine

theorem length_ratePieces (t : Tariff) (sc : Screen) (masks : RatingMasks) (n : Nat) (ps : List ParcelRecord) :
    (ratePieces t sc masks n ps).1.length = ps.length := by
  induction ps with
  | nil => rfl
  | cons p ps ih =>
    rw [ratePieces]
    dsimp only
    split
    · simp
    · simp [ih]

/-- Every member's parcel, in ring order. -/
theorem filterMap_parcelAt {s : State} {members : List Nat} {ps : List ParcelRecord}
    (records : members.map (fun j => (s.slot j).record) = ps.map (fun x => some (.parcel x))) :
    members.filterMap s.parcelAt = ps := by
  induction members generalizing ps with
  | nil =>
    cases ps with
    | nil => rfl
    | cons p ps => cases records
  | cons i members ih =>
    cases ps with
    | nil => cases records
    | cons p ps =>
      obtain ⟨record, rest⟩ := List.cons_eq_cons.1 records
      have parcel : s.parcelAt i = some p := by
        rw [State.parcelAt, show (s.slot i).record = some (.parcel p) from record]
      rw [List.filterMap_cons_some parcel, ih rest]

theorem exists_parcels {s : State} {members : List Nat} (h : s.OwnsParcels members) :
    ∃ ps : List ParcelRecord, members.map (fun j => (s.slot j).record) = ps.map (fun x => some (.parcel x)) ∧
      ps.length = members.length := by
  obtain ⟨nodup, parcels⟩ := h
  clear nodup
  induction members with
  | nil => exact ⟨[], rfl, rfl⟩
  | cons i members ih =>
    obtain ⟨p, -, record⟩ := parcels i List.mem_cons_self
    obtain ⟨ps, records, length⟩ := ih fun j hj => parcels j (List.mem_cons_of_mem i hj)
    exact ⟨p :: ps, by simp [record, records], by simp [length]⟩

/-! ### Ratings written -/

theorem slot_writeRatings_other (s : State) (l : List (Nat × Option RatingResult)) {j : Nat} (h : j ∉ l.map (·.1)) :
    (s.writeRatings l).slot j = s.slot j := by
  induction l generalizing s with
  | nil => rfl
  | cons x l ih =>
    rw [List.map_cons, List.mem_cons, not_or] at h
    rw [State.writeRatings, ih _ h.2, slot_writeRating, if_neg fun k => h.1 k.1]

theorem slot_writeRatings (s : State) {l : List (Nat × Option RatingResult)} (nodup : (l.map (·.1)).Nodup)
    {x : Nat × Option RatingResult} (hx : x ∈ l) (inRing : x.1 < s.ring.slots.length) :
    (s.writeRatings l).slot x.1 = { s.slot x.1 with rating := x.2 } := by
  induction l generalizing s with
  | nil => cases hx
  | cons y l ih =>
    obtain ⟨fresh, nodup⟩ := List.nodup_cons.1 nodup
    rw [State.writeRatings]
    obtain rfl | hx := List.mem_cons.1 hx
    · rw [slot_writeRatings_other _ _ fresh, slot_writeRating, if_pos ⟨rfl, inRing⟩]
    · have other : x.1 ≠ y.1 := fun e => fresh (List.mem_map.2 ⟨x, hx, e⟩)
      have length : (s.writeRating y.1 y.2).ring.slots.length = s.ring.slots.length := length_updateSlot _ _ _
      rw [ih _ nodup hx (by rwa [length]), slot_writeRating, if_neg fun k => other k.1]

theorem writeRatings_eq (s : State) (l : List (Nat × Option RatingResult)) : s.writeRatings l =
    { s with ring := { s.ring with slots := (s.writeRatings l).ring.slots } } := by
  induction l generalizing s with
  | nil => rfl
  | cons x l ih =>
    rw [State.writeRatings, ih]
    rfl

/-! ### Members that seek -/

theorem slot_seekAll (s : State) {members : List Nat} (nodup : members.Nodup) (j : Nat) :
    (members.foldl State.seek s).slot j =
      if j ∈ members ∧ j < s.ring.slots.length then { s.slot j with tag := .seeking } else s.slot j := by
  induction members generalizing s with
  | nil => simp
  | cons i members ih =>
    obtain ⟨fresh, nodup⟩ := List.nodup_cons.1 nodup
    have length : (s.seek i).ring.slots.length = s.ring.slots.length := length_updateSlot _ _ _
    have first : (s.seek i).slot j = if j = i ∧ i < s.ring.slots.length then { s.slot i with tag := .seeking } else s.slot j :=
      slot_updateSlot s i j _
    rw [List.foldl_cons, ih (s.seek i) nodup, length, first]
    by_cases e : j = i
    · subst e
      by_cases inRing : j < s.ring.slots.length <;> simp [fresh, inRing]
    · simp [e]

theorem seekAll_eq (s : State) (members : List Nat) : members.foldl State.seek s =
    { s with ring := { s.ring with slots := (members.foldl State.seek s).ring.slots } } := by
  induction members generalizing s with
  | nil => rfl
  | cons i members ih =>
    rw [List.foldl_cons, ih]
    rfl

/-! ### Members refused at rating -/

/-- Each member's refusal by its own result (R25). -/
def ratedRefusals (l : List (Nat × Option RatingResult)) : List Completing :=
  l.map (fun x => (x.1, none, .refused (peerReason x.2)))

@[simp] theorem ratedRefusals_slots (l : List (Nat × Option RatingResult)) :
    (ratedRefusals l).map (·.1) = l.map (·.1) := by simp [ratedRefusals]

theorem refuseRated_eq (s : State) (l : List (Nat × Option RatingResult)) :
    s.refuseRated l = s.completeAll (ratedRefusals l) := by
  induction l generalizing s with
  | nil => rfl
  | cons x l ih => exact ih _

/-! ### The closing consignment -/

/-- The station when the members have their links, the consignment is closed, and the ratings are written and their flags
raised (R23, R66). -/
def State.ratedMembers (s : State) (members : List Nat) (results : List (Option RatingResult)) (flags : List Flag) : State :=
  ((((s.linkMembers members 1 members).closeConsignment).writeRatings (members.zip results)).raiseAll flags)

section
variable {s : State} {members : List Nat} {results : List (Option RatingResult)}

theorem zip_slots (length : results.length = members.length) : (members.zip results).map (·.1) = members :=
  List.map_fst_zip length.ge

/-- A member's slot with its link and its result. -/
theorem slot_ratedMembers (owns : s.OwnsParcels members) (length : results.length = members.length) (flags : List Flag)
    {k j : Nat} {x : Option RatingResult} (member : members[k]? = some j) (result : results[k]? = some x) :
    (s.ratedMembers members results flags).slot j = { s.slot j with link := some ⟨members, k + 1⟩, rating := x } := by
  have inRing : j < s.ring.slots.length := by
    obtain ⟨p, owned, -⟩ := owns.parcels j (List.mem_of_getElem? member)
    exact lt_of_engineOwns owned
  have linked : ((s.linkMembers members 1 members).closeConsignment).slot j =
      { s.slot j with link := some ⟨members, 1 + k⟩ } := slot_linkMembers s members 1 owns.nodup member inRing
  have pair : (j, x) ∈ members.zip results := by
    refine List.mem_of_getElem? (i := k) ?_
    rw [List.getElem?_zip_eq_some]
    exact ⟨member, result⟩
  have step := (SlotStep.linkMembers s members members 1).length
  have written := slot_writeRatings ((s.linkMembers members 1 members).closeConsignment)
    (l := members.zip results) (by rw [zip_slots length]; exact owns.nodup) pair (inRing.trans_eq step.symm)
  rw [State.ratedMembers, raiseAll_slot, written, linked, Nat.add_comm]

theorem slot_ratedMembers_other (length : results.length = members.length) (flags : List Flag) {j : Nat}
    (h : j ∉ members) : (s.ratedMembers members results flags).slot j = s.slot j := by
  rw [State.ratedMembers, raiseAll_slot, slot_writeRatings_other _ _ (by rwa [zip_slots length])]
  exact slot_linkMembers_other s members 1 members h

/-- Slots and summary apart, only the consignment is closed. -/
theorem ratedMembers_eq (flags : List Flag) : s.ratedMembers members results flags =
    { s with
      ring := { s.ring with
        slots := (s.ratedMembers members results flags).ring.slots, consignment := none, watchdog := none }
      unit := { s.unit with summary := (s.ratedMembers members results flags).unit.summary } } := by
  rw [State.ratedMembers, raiseAll_eq, writeRatings_eq, linkMembers_eq]
  rfl

theorem setExactly_ratedMembers (flags : List Flag) :
    SetExactly s.unit.summary (s.ratedMembers members results flags).unit.summary flags := by
  have before : (((s.linkMembers members 1 members).closeConsignment).writeRatings (members.zip results)).unit = s.unit := by
    rw [writeRatings_eq]
    exact linkMembers_unit s members 1 members
  exact before ▸ setExactly_raiseAll _ flags

theorem length_ratedMembers (flags : List Flag) :
    (s.ratedMembers members results flags).ring.slots.length = s.ring.slots.length := by
  have link := (SlotStep.linkMembers s members members 1).length
  have written := (SlotStep.writeRatings ((s.linkMembers members 1 members).closeConsignment) (members.zip results)).length
  have raised := (SlotStep.raiseAll
    (((s.linkMembers members 1 members).closeConsignment).writeRatings (members.zip results)) flags).length
  exact raised.trans (written.trans link)

theorem ownsParcels_ratedMembers (owns : s.OwnsParcels members) (length : results.length = members.length)
    (flags : List Flag) : (s.ratedMembers members results flags).OwnsParcels members := by
  refine ⟨owns.nodup, fun j hj => ?_⟩
  obtain ⟨p, owned, record⟩ := owns.parcels j hj
  obtain ⟨k, inList, rfl⟩ := List.mem_iff_getElem.1 hj
  have member : members[k]? = some members[k] := List.getElem?_eq_getElem inList
  have result : results[k]? = some results[k] := List.getElem?_eq_getElem (length ▸ inList)
  exact ⟨p, by rw [State.OwnsParcel, slot_ratedMembers owns length flags member result]; exact ⟨owned, record⟩⟩

end

/-- The rating of a consignment that closes, as one event: refused whole, or sought whole (R23, R25, R66). -/
theorem takeLast_eq {s : State} {t : Tariff} {i : Nat} {p : ParcelRecord} {c : Consignment} {ps : List ParcelRecord}
    {results : List (Option RatingResult)} {flags : List Flag} {whole : Bool} (opened : s.ring.consignment = some c)
    (matched : c.matchedBy p = true) (owns : s.OwnsParcels (c.members ++ [i]))
    (records : (c.members ++ [i]).map (fun j => (s.slot j).record) = ps.map (fun x => some (.parcel x)))
    (rated : ratePieces t s.activeScreen s.ratingMasks (c.members ++ [i]).length ps = (results, flags, whole)) :
    s.takeLast t i p =
      if whole then
        ((c.members ++ [i]).foldl State.seek (s.ratedMembers (c.members ++ [i]) results flags)).dispatch t (c.members ++ [i])
          c.service ((((c.members ++ [i]).zip results).filterMap (·.2)).head?.elim 0 (·.route))
      else ((s.ratedMembers (c.members ++ [i]) results flags).completeAll
        (ratedRefusals ((c.members ++ [i]).zip results))).raise .consignmentPeer := by
  have closed : ((s.linkMembers (c.members ++ [i]) 1 (c.members ++ [i])).closeConsignment) =
      { s with ring := { s.ring with
        slots := (s.linkMembers (c.members ++ [i]) 1 (c.members ++ [i])).ring.slots, consignment := none, watchdog := none } } := by
    rw [State.closeConsignment, linkMembers_eq]
  have records' : (c.members ++ [i]).map
      (fun j => (((s.linkMembers (c.members ++ [i]) 1 (c.members ++ [i])).closeConsignment).slot j).record) =
        ps.map (fun x => some (.parcel x)) := by
    rw [← records]
    refine List.map_congr_left fun j hj => ?_
    obtain ⟨k, hk⟩ := List.getElem?_of_mem hj
    obtain ⟨q, owned, -⟩ := owns.parcels j hj
    have linked := slot_linkMembers s (c.members ++ [i]) 1 owns.nodup hk (lt_of_engineOwns owned)
    exact (congrArg Slot.record linked).trans rfl
  have same : ratePieces t ((s.linkMembers (c.members ++ [i]) 1 (c.members ++ [i])).closeConsignment).activeScreen
      ((s.linkMembers (c.members ++ [i]) 1 (c.members ++ [i])).closeConsignment).ratingMasks (c.members ++ [i]).length
      ((c.members ++ [i]).filterMap ((s.linkMembers (c.members ++ [i]) 1 (c.members ++ [i])).closeConsignment).parcelAt) =
        (results, flags, whole) := by
    rw [filterMap_parcelAt records', closed]
    exact rated
  rw [State.takeLast, opened]
  simp only [matched, Bool.not_true, Bool.false_eq_true, if_false]
  rw [State.rateConsignment, same]
  dsimp only
  rw [refuseRated_eq]
  rfl

end Sys2Proof.Machine
end

section
/-! What every command keeps of the ring (R56, R57, R69, R175) and of the DONE slots (R58, R72). -/

namespace Sys2Proof.Machine

/-- DONE slots stay as they are. -/
def DoneStay (s t : State) : Prop := ∀ j, (s.slot j).tag = .complete → t.slot j = s.slot j

theorem DoneStay.refl (s : State) : DoneStay s s := fun _ _ => rfl

theorem DoneStay.trans {s t u : State} (h : DoneStay s t) (k : DoneStay t u) : DoneStay s u := fun j done =>
  (k j (by rw [h j done]; exact done)).trans (h j done)

theorem DoneStay.of_ring {s t : State} (ring : t.ring.slots = s.ring.slots) : DoneStay s t := fun j _ => by
  rw [State.slot, State.slot, ring]

theorem DoneStay.lotStep {s t : State} (h : LotStep s t) : DoneStay s t := fun j done => by
  obtain e | ⟨seeking, -⟩ := h.slots j
  · exact e
  · rw [done] at seeking; cases seeking

/-- Changes of slots that the engine owns. -/
theorem DoneStay.of_others {s t : State} {is : List Nat} (others : ∀ j, j ∉ is → t.slot j = s.slot j)
    (owned : ∀ j ∈ is, (s.slot j).tag ≠ .complete) : DoneStay s t := fun j done =>
  others j fun hj => owned j hj done

theorem OwnsParcel.notDone {s : State} {i : Nat} {p : ParcelRecord} (h : s.OwnsParcel i p) : (s.slot i).tag ≠ .complete :=
  fun e => by
    have owned := h.1
    simp [Slot.engineOwns, e] at owned

/-! ### A record taken -/

/-- The record of slot `i` has been taken: the ring fits but for the slot's place in the window, the slot is QUEUED no
more, the positions have not moved, and DONE slots stay. -/
structure Takes (s t : State) (i : Nat) : Prop where
  inv : RingInv t (· = i)
  taken : (t.slot i).tag ≠ .queued
  rate : t.ring.rate = s.ring.rate
  count : t.ring.pendingCount = s.ring.pendingCount
  done : DoneStay s t

namespace Takes

variable {s t u : State} {i : Nat}

theorem lotStep (h : Takes s t i) (k : LotStep t u) : Takes s u i where
  inv := h.inv.lotStep k
  taken := by
    obtain e | ⟨-, p, d, c, -, e⟩ := k.slots i
    · rw [e]; exact h.taken
    · rw [e]; simp [Slot.completed]
  rate := k.rate.trans h.rate
  count := k.pendingCount.trans h.count
  done := h.done.trans (.lotStep k)

/-- Fields that the ring does not hold may change. -/
theorem setRest (h : Takes s t i) (ring : u.ring = t.ring) : Takes s u i := by
  have slot (j : Nat) : u.slot j = t.slot j := by rw [State.slot, State.slot, ring]
  refine ⟨?_, by rw [slot]; exact h.taken, by rw [ring]; exact h.rate, by rw [ring]; exact h.count,
    h.done.trans (.of_ring (by rw [ring]))⟩
  refine h.inv.move (by rw [ring]) (by rw [ring]) (by rw [ring]) (by rw [ring]) (fun j tag => by rwa [slot] at tag)
    (fun j _ tag => by rwa [slot] at tag) (fun j => by rw [slot]; exact h.inv.fits j) (by rw [ring]; exact h.inv.watchdog)
    (fun j => by rw [slot, ring]; exact h.inv.grouped j) (by rw [ring]; exact h.inv.members)

/-- The taken slot completes, and nothing else in the ring changes. -/
theorem of_completed (h : RingInv s (· = i)) (ring : t.ring = { s.ring with slots := t.ring.slots })
    (length : t.ring.slots.length = s.ring.slots.length) (others : ∀ j, j ≠ i → t.slot j = s.slot j)
    (queued : (s.slot i).tag = .queued) (done : (t.slot i).tag = .complete) (fits : (t.slot i).Fits) : Takes s t i where
  inv := h.completes ring length others (by simp [queued]) done fits
  taken := by simp [done]
  rate := by rw [ring]
  count := by rw [ring]
  done := .of_others (is := [i]) (fun j hj => others j (by simpa using hj)) (by simp [queued])

theorem of_refused (h : RingInv s (· = i)) {p : ParcelRecord} (queued : (s.slot i).tag = .queued)
    (record : (s.slot i).record = some (.parcel p)) (d : Option DispatchFields) (why : Reason) :
    Takes s (s.completeParcel i d (.refused why)) i := by
  have refuses := completeParcel_refused (ownsParcel_of_queued queued record) d why
  have slot := (refuses.refused i List.mem_cons_self).1
  exact of_completed h refuses.ring refuses.length (fun j hj => refuses.others j (by simpa using hj)) queued slot.1
    (fits_of_refusedAs slot (by rw [record]; rfl))

theorem of_screen (h : RingInv s (· = i)) {q : ScreenRecord} (queued : (s.slot i).tag = .queued)
    (record : (s.slot i).record = some (.screen q)) (o : ScreenOutcome) : Takes s (s.completeScreen i o) i := by
  have owned := engineOwns_of_queued queued
  have slots (j : Nat) : (s.completeScreen i o).slot j =
      if j = i ∧ i < s.ring.slots.length then
        { s.slot i with tag := .complete, screenResult := some ⟨q.terminalTag, o⟩ } else s.slot j := by
    rw [completeScreen_eq owned record]
    exact slot_updateSlot s i j _
  have self := (slots i).trans (if_pos ⟨rfl, lt_of_engineOwns owned⟩)
  refine of_completed h ?_ (SlotStep.completeScreen s i o).length (fun j hj => (slots j).trans (if_neg fun k => hj k.1))
    queued (by rw [self]) ?_
  · rw [completeScreen_eq owned record]
  · rw [self]
    exact ⟨nofun, fun _ => by simp [record], by simp, by simp⟩

end Takes

/-- The record's slot still QUEUED after an open consignment has been refused before it (R62). -/
theorem endOpenConsignment_takes {s : State} {i : Nat} (h : RingInv s (· = i)) (queued : (s.slot i).tag = .queued) {u : State}
    (next : RingInv s.endOpenConsignment (· = i) → s.endOpenConsignment.slot i = s.slot i →
      s.endOpenConsignment.ring.consignment = none → Takes s.endOpenConsignment u i) : Takes s u i := by
  obtain ⟨none, others, rate⟩ := endOpenConsignment_spec h
  have k := next h.endOpenConsignment (others i (by simp [queued])) none
  refine ⟨k.inv, k.taken, k.rate.trans rate, k.count.trans ?_, .trans (fun j done => others j (by simp [done])) k.done⟩
  unfold State.endOpenConsignment
  split
  · case h_1 c opened =>
    have ring := (refuseConsignment_spec (h.ownsMembers opened) (h.members c opened).1
      .consignmentOrder .consignmentOrder).2.1
    rw [ring]
  · rfl

section
variable {s : State} {i : Nat}

theorem takeScreen_takes (h : RingInv s (· = i)) {q : ScreenRecord} (queued : (s.slot i).tag = .queued)
    (record : (s.slot i).record = some (.screen q)) : Takes s (s.takeScreen i q) i := by
  unfold State.takeScreen
  split
  · exact (Takes.of_screen h queued record .applied).setRest rfl
  · exact .of_screen h queued record _

theorem refuseAlone_takes (h : RingInv s (· = i)) {p : ParcelRecord} (queued : (s.slot i).tag = .queued)
    (record : (s.slot i).record = some (.parcel p)) : Takes s (s.refuseAlone i) i :=
  (Takes.of_refused h queued record none .consignmentOrder).setRest rfl

/-- A QUEUED parcel turned into a piece of the open consignment (R64, R65). -/
theorem takes_of_grouped (h : RingInv s (· = i)) {p : ParcelRecord} (queued : (s.slot i).tag = .queued)
    (record : (s.slot i).record = some (.parcel p)) {t : State} {c : Consignment} {w : Timer} (l : Option Link)
    (ring : t.ring = { s.ring with
      slots := s.ring.slots.modify i (fun x => { x with tag := .grouped, link := l }), consignment := some c, watchdog := w })
    (runs : w.isSome = true) (before : ∀ j, (s.slot j).tag = .grouped ↔ j ∈ c.members ∧ j ≠ i) (member : i ∈ c.members)
    (bounded : c.members.length ≤ 7) (nodup : c.members.Nodup) : Takes s t i := by
  have inRing := lt_of_engineOwns (engineOwns_of_queued queued)
  have slots (j : Nat) : t.slot j = if j = i then { s.slot i with tag := .grouped, link := l } else s.slot j := by
    have updated : t.slot j = (s.updateSlot i fun x => { x with tag := .grouped, link := l }).slot j := by
      rw [State.slot, ring]
      rfl
    rw [updated, slot_updateSlot]
    exact if_congr (and_iff_left inRing) rfl rfl
  have self := (slots i).trans (if_pos rfl)
  have others (j : Nat) (hj : j ≠ i) := (slots j).trans (if_neg hj)
  refine ⟨?_, by simp [self], by rw [ring], by rw [ring], .of_others (is := [i]) (fun j hj => others j (by simpa using hj))
    (by simp [queued])⟩
  refine h.move (by rw [ring]; simp) (by rw [ring]) (by rw [ring]) (by rw [ring]) (fun j tag => ?_) (fun j free tag => ?_)
    (fun j => ?_) (by rw [ring]; exact runs) (fun j => ?_) ?_
  · by_cases e : j = i
    · rw [e, self] at tag; cases tag
    · rwa [others j e] at tag
  · rwa [others j free] at tag
  · by_cases e : j = i
    · rw [e, self]
      exact fits_turned (h.fits i) record (by simp [queued]) (.inl rfl) l
    · rw [others j e]; exact h.fits j
  · rw [ring]
    by_cases e : j = i
    · simp [e, self, member]
    · simp [others j e, before j, e]
  · rw [ring]
    rintro _ ⟨⟩
    exact ⟨List.ne_nil_of_mem member, bounded, nodup⟩

theorem openConsignment_takes (h : RingInv s (· = i)) {p : ParcelRecord} (queued : (s.slot i).tag = .queued)
    (record : (s.slot i).record = some (.parcel p)) (none : s.ring.consignment = none) :
    Takes s (s.openConsignment i p) i := by
  refine takes_of_grouped h queued record (some ⟨[i], 1⟩) rfl rfl (fun j => ?_) List.mem_cons_self (Nat.le_add_left 1 6)
    (List.nodup_singleton i)
  rw [h.grouped j, none]
  simp

theorem joinConsignment_takes (h : RingInv s (· = i)) {p : ParcelRecord} (queued : (s.slot i).tag = .queued)
    (record : (s.slot i).record = some (.parcel p)) {c : Consignment} (opened : s.ring.consignment = some c)
    (room : c.members.length < 7) : Takes s (s.joinConsignment i c) i := by
  have nodup := (h.ownsMembers_and opened (ownsParcel_of_queued queued record) (by simp [queued])).nodup
  refine takes_of_grouped h queued record (w := s.ring.watchdog) (some ⟨c.members ++ [i], (c.members ++ [i]).length⟩) rfl ?_
    (fun j => ?_) (by simp) (by simpa using room) nodup
  · rw [h.watchdog, opened]; rfl
  · have grouped := h.grouped j
    rw [opened] at grouped
    simp only [Option.some.injEq, exists_eq_left'] at grouped
    by_cases e : j = i
    · simp [e, queued]
    · simp [grouped, e]

/-- The open consignment refused with the piece that ends it (R65, R66, R67). -/
theorem refuseWithPiece_takes (h : RingInv s (· = i)) {p : ParcelRecord} (queued : (s.slot i).tag = .queued)
    (record : (s.slot i).record = some (.parcel p)) {c : Consignment} (opened : s.ring.consignment = some c)
    (why : Reason) (flag : Flag) : Takes s (s.refuseConsignment (c.members ++ [i]) why flag) i := by
  have owns := h.ownsMembers_and opened (ownsParcel_of_queued queued record) (by simp [queued])
  obtain ⟨⟨refused, others, -⟩, ring, -⟩ := refuseConsignment_spec owns (by simp) why flag
  have self := (refused c.members.length i (by simp)).1
  refine ⟨h.refuses opened owns (by simp +contextual) why flag, by simp [self.1], by rw [ring], by rw [ring],
    .of_others others fun j hj => ?_⟩
  obtain ⟨q, owned⟩ := owns.parcels j hj
  exact OwnsParcel.notDone owned

theorem takeMiddle_takes (h : RingInv s (· = i)) {p : ParcelRecord} (queued : (s.slot i).tag = .queued)
    (record : (s.slot i).record = some (.parcel p)) : Takes s (s.takeMiddle i p) i := by
  unfold State.takeMiddle
  split
  · exact refuseAlone_takes h queued record
  case h_2 c opened =>
    split
    · exact refuseWithPiece_takes h queued record opened _ _
    case isFalse joins =>
      simp only [Bool.or_eq_true, decide_eq_true_eq, not_or] at joins
      have room : ¬ 8 ≤ c.members.length + 1 := joins.2
      exact joinConsignment_takes h queued record opened (by omega)

/-- Members that seek or complete, no consignment open any more (R66). -/
theorem takes_of_members (h : RingInv s (· = i)) {p : ParcelRecord} (queued : (s.slot i).tag = .queued)
    (record : (s.slot i).record = some (.parcel p)) {c : Consignment} (opened : s.ring.consignment = some c) {t : State}
    (length : t.ring.slots.length = s.ring.slots.length)
    (ring : t.ring = { s.ring with slots := t.ring.slots, consignment := none, watchdog := none })
    (others : ∀ j, j ∉ c.members ++ [i] → t.slot j = s.slot j)
    (turned : ∀ j ∈ c.members ++ [i], ((t.slot j).tag = .seeking ∨ (t.slot j).tag = .complete) ∧ (t.slot j).Fits) :
    Takes s t i := by
  have owns := h.ownsMembers_and opened (ownsParcel_of_queued queued record) (by simp [queued])
  have notQueued (j) (hj : j ∈ c.members ++ [i]) : (t.slot j).tag ≠ .queued ∧ (t.slot j).tag ≠ .grouped := by
    obtain e | e := (turned j hj).1 <;> simp [e]
  refine ⟨?_, (notQueued i (by simp)).1, by rw [ring], by rw [ring], .of_others others fun j hj => ?_⟩
  · refine h.move length (by rw [ring]) (by rw [ring]) (by rw [ring]) (fun j tag => ?_) (fun j free tag => ?_)
      (fun j => ?_) (by rw [ring]; rfl) (fun j => ?_) (by rw [ring]; nofun)
    all_goals by_cases hj : j ∈ c.members ++ [i]
    · exact absurd tag (notQueued j hj).1
    · rwa [others j hj] at tag
    · have member : j ∈ c.members := by simpa [free] using hj
      exact .inl ((h.grouped j).2 ⟨c, opened, member⟩)
    · rwa [others j hj] at tag
    · exact (turned j hj).2
    · rw [others j hj]; exact h.fits j
    · rw [ring]; simp [(notQueued j hj).2]
    · have notMember : j ∉ c.members := fun e => hj (by simp [e])
      rw [others j hj, h.grouped j, opened, ring]
      simp [notMember]
  · obtain ⟨q, owned⟩ := owns.parcels j hj
    exact OwnsParcel.notDone owned

theorem takeLast_takes (h : RingInv s (· = i)) {p : ParcelRecord} (queued : (s.slot i).tag = .queued)
    (record : (s.slot i).record = some (.parcel p)) (t : Tariff) : Takes s (s.takeLast t i p) i := by
  cases opened : s.ring.consignment with
  | none =>
    rw [State.takeLast, opened]
    exact refuseAlone_takes h queued record
  | some c =>
    cases matched : c.matchedBy p with
    | false =>
      simp only [State.takeLast, opened, matched]
      exact refuseWithPiece_takes h queued record opened _ _
    | true =>
      have owns := h.ownsMembers_and opened (ownsParcel_of_queued queued record) (by simp [queued])
      obtain ⟨ps, records, count⟩ := exists_parcels owns
      cases rated : ratePieces t s.activeScreen s.ratingMasks (c.members ++ [i]).length ps with
      | mk results more =>
        obtain ⟨flags, whole⟩ := more
        have length : results.length = (c.members ++ [i]).length := by
          have e := length_ratePieces t s.activeScreen s.ratingMasks (c.members ++ [i]).length ps
          rw [rated] at e
          exact e.trans count
        have ring := congrArg State.ring (ratedMembers_eq (s := s) (members := c.members ++ [i]) (results := results) flags)
        have slots (j) (hj : j ∈ c.members ++ [i]) : ∃ l r,
            (s.ratedMembers (c.members ++ [i]) results flags).slot j = { s.slot j with link := l, rating := r } := by
          obtain ⟨k, inList, rfl⟩ := List.mem_iff_getElem.1 hj
          exact ⟨_, _, slot_ratedMembers owns length flags (List.getElem?_eq_getElem inList)
            (List.getElem?_eq_getElem (length ▸ inList))⟩
        have ratedOwns := ownsParcels_ratedMembers owns length flags
        rw [takeLast_eq opened matched owns records rated]
        split
        case isTrue =>
          refine Takes.lotStep ?_ (LotStep.startRequest _ _)
          have sought := slot_seekAll (s.ratedMembers (c.members ++ [i]) results flags) owns.nodup
          have seekRing := congrArg State.ring (seekAll_eq (s.ratedMembers (c.members ++ [i]) results flags) (c.members ++ [i]))
          refine takes_of_members h queued record opened ?_ (by rw [seekRing, ring]) (fun j hj => ?_) fun j hj => ?_
          · exact (SlotStep.foldl State.seek (fun s i => SlotStep.updateSlot s i _) _ _).length.trans (length_ratedMembers flags)
          · rw [sought, if_neg fun e => hj e.1]
            exact slot_ratedMembers_other length flags hj
          · obtain ⟨q, owned, parcel⟩ := ratedOwns.parcels j hj
            obtain ⟨l, r, slot⟩ := slots j hj
            obtain ⟨q', owned'⟩ := owns.parcels j hj
            rw [sought, if_pos ⟨hj, lt_of_engineOwns owned⟩, slot]
            exact ⟨.inl rfl, fits_turned (x := { s.slot j with link := l, rating := r })
              (fits_relinked (h.fits j) (fun e => by simp [State.OwnsParcel, Slot.engineOwns, e] at owned') l r)
              (slot ▸ parcel) (OwnsParcel.notDone owned') (.inr rfl) l⟩
        case isFalse =>
          refine Takes.setRest (t := (s.ratedMembers (c.members ++ [i]) results flags).completeAll
            (ratedRefusals ((c.members ++ [i]).zip results))) ?_ rfl
          have may : (s.ratedMembers (c.members ++ [i]) results flags).MayComplete
              (ratedRefusals ((c.members ++ [i]).zip results)) := by
            refine ⟨by rw [ratedRefusals_slots, zip_slots length]; exact owns.nodup, fun x hx => ratedOwns.parcels x.1 ?_⟩
            have slot := List.mem_map_of_mem (f := (·.1)) hx
            rwa [ratedRefusals_slots, zip_slots length] at slot
          have completedRing := congrArg State.ring (completeAll_eq may)
          refine takes_of_members h queued record opened ((length_completeAll _ _).trans (length_ratedMembers flags))
            (by rw [completedRing, ring]) (fun j hj => ?_) fun j hj => ?_
          · rw [slot_completeAll_other _ _ (by rwa [ratedRefusals_slots, zip_slots length])]
            exact slot_ratedMembers_other length flags hj
          · have member : j ∈ (ratedRefusals ((c.members ++ [i]).zip results)).map (·.1) := by
              rwa [ratedRefusals_slots, zip_slots length]
            obtain ⟨x, hx, rfl⟩ := List.mem_map.1 member
            obtain ⟨q, parcel, slot⟩ := slot_completeAll may hx
            rw [slot]
            exact ⟨.inr rfl, fits_completed parcel _ _⟩

theorem rateAlone_takes (h : RingInv s (· = i)) {p : ParcelRecord} (queued : (s.slot i).tag = .queued)
    (record : (s.slot i).record = some (.parcel p)) (t : Tariff) : Takes s (s.rateAlone t i p) i := by
  have inRing := lt_of_engineOwns (engineOwns_of_queued queued)
  cases rated : rateRecord t s.activeScreen s.ratingMasks none p with
  | mk r fs =>
    have slots := slot_ratedAt (s := s) inRing r fs
    have self := (slots i).trans (if_pos rfl)
    have step := slotStep_ratedAt s i r fs
    have ratedInv : RingInv (s.ratedAt i r fs) (· = i) := by
      refine h.move step.length (by rw [step.ring]) (by rw [step.ring]) (by rw [step.ring]) (fun j tag => ?_)
        (fun j free tag => ?_) (fun j => ?_) (by rw [step.ring]; exact h.watchdog) (fun j => ?_)
        (by rw [step.ring]; exact h.members)
      · by_cases e : j = i
        · rw [e]; exact queued
        · rwa [slots, if_neg e] at tag
      · rwa [slots, if_neg free] at tag
      · by_cases e : j = i
        · rw [e, self]
          exact fits_relinked (h.fits i) (by simp [queued]) (s.slot i).link (some r)
        · rw [slots, if_neg e]; exact h.fits j
      · have consignment : (s.ratedAt i r fs).ring.consignment = s.ring.consignment := by rw [step.ring]
        rw [consignment, ← h.grouped j]
        by_cases e : j = i
        · rw [e, self]
        · rw [slots, if_neg e]
    have stay : DoneStay s (s.ratedAt i r fs) :=
      .of_others (is := [i]) (fun j hj => (slots j).trans (if_neg (by simpa using hj))) (by simp [queued])
    cases refused : r.refusal with
    | some why =>
      rw [rateAlone_refused rated refused]
      have k := Takes.of_refused ratedInv (by rw [self]; exact queued) (by rw [self]; exact record) none why
      exact ⟨k.inv, k.taken, k.rate.trans (by rw [step.ring]), k.count.trans (by rw [step.ring]), stay.trans k.done⟩
    | none =>
      have seeks : s.rateAlone t i p = ((s.ratedAt i r fs).seek i).dispatch t [i] p.service r.route := by
        rw [State.rateAlone, rated]
        simp only [refused]
        rfl
      rw [seeks]
      refine Takes.lotStep ?_ (LotStep.startRequest _ _)
      have sought (j : Nat) : ((s.ratedAt i r fs).seek i).slot j =
          if j = i then { s.slot i with rating := some r, tag := .seeking } else s.slot j := by
        have updated := slot_updateSlot (s.ratedAt i r fs) i j fun x => { x with tag := .seeking }
        rw [self, slots j] at updated
        refine updated.trans ?_
        by_cases e : j = i
        · rw [if_pos ⟨e, inRing.trans_eq step.length.symm⟩, if_pos e]
        · rw [if_neg fun k => e k.1, if_neg e, if_neg e]
      have seekRing : ((s.ratedAt i r fs).seek i).ring = { s.ring with slots := ((s.ratedAt i r fs).seek i).ring.slots } :=
        (congrArg (fun q : Ring => { q with slots := ((s.ratedAt i r fs).seek i).ring.slots }) step.ring).trans rfl
      refine ⟨?_, by simp [sought], by rw [seekRing], by rw [seekRing],
        .of_others (is := [i]) (fun j hj => (sought j).trans (if_neg (by simpa using hj))) (by simp [queued])⟩
      refine h.move ((length_updateSlot _ _ _).trans step.length) (by rw [seekRing]) (by rw [seekRing]) (by rw [seekRing])
        (fun j tag => ?_) (fun j free tag => ?_) (fun j => ?_) (by rw [seekRing]; exact h.watchdog) (fun j => ?_)
        (by rw [seekRing]; exact h.members)
      · by_cases e : j = i
        · rw [e]; exact queued
        · rwa [sought, if_neg e] at tag
      · rwa [sought, if_neg free] at tag
      · by_cases e : j = i
        · rw [sought, if_pos e]
          exact fits_turned (x := { s.slot i with rating := some r })
            (fits_relinked (h.fits i) (by simp [queued]) (s.slot i).link (some r)) record (by simp [queued]) (.inr rfl) _
        · rw [sought, if_neg e]; exact h.fits j
      · have consignment : ((s.ratedAt i r fs).seek i).ring.consignment = s.ring.consignment := by rw [seekRing]
        rw [consignment, ← h.grouped j]
        by_cases e : j = i
        · simp [sought, e, queued]
        · rw [sought, if_neg e]

theorem takeRecord_takes (h : RingInv s (· = i)) {r : Record} (queued : (s.slot i).tag = .queued)
    (record : (s.slot i).record = some r) (t : Tariff) : Takes s (s.takeRecord t i r) i := by
  unfold State.takeRecord
  split
  · exact endOpenConsignment_takes h queued fun k slot _ => takeScreen_takes k (slot ▸ queued) (slot ▸ record)
  · split
    · exact endOpenConsignment_takes h queued fun k slot none => openConsignment_takes k (slot ▸ queued) (slot ▸ record) none
    · exact takeMiddle_takes h queued record
    · exact takeLast_takes h queued record t
    · exact endOpenConsignment_takes h queued fun k slot _ => rateAlone_takes k (slot ▸ queued) (slot ▸ record) t

end

end Sys2Proof.Machine
end

section
/-! Every command keeps the ring fitting (O7), and every command but COLLECT and the resets keeps the DONE slots (O11). -/

namespace Sys2Proof.Machine

/-- What an operation other than COLLECT and a reset does to a ring that fits: it fits on, and DONE slots stay. -/
def RingKept (s t : State) : Prop := s.RingFits → t.RingFits ∧ DoneStay s t

/-- A slot completed at WITHDRAW, like one taken, leaves the ring fitting. -/
theorem RingInv.of_same {s t : State} {taken : Nat → Prop} (h : RingInv s taken) (ring : t.ring = s.ring) :
    RingInv t taken := by
  have slot (j : Nat) : t.slot j = s.slot j := by rw [State.slot, State.slot, ring]
  exact h.move (by rw [ring]) (by rw [ring]) (by rw [ring]) (by rw [ring]) (fun j tag => by rwa [slot] at tag)
    (fun j _ tag => by rwa [slot] at tag) (fun j => by rw [slot]; exact h.fits j) (by rw [ring]; exact h.watchdog)
    (fun j => by rw [slot, ring]; exact h.grouped j) (by rw [ring]; exact h.members)

theorem RingInv.mono {s : State} {taken taken' : Nat → Prop} (h : RingInv s taken) (more : ∀ j, taken j → taken' j) :
    RingInv s taken' :=
  { h with window := fun k hk free => h.window k hk (mt (more _) free) }

/-- Where a tag is not EMPTY the station is READY (R175). -/
theorem ready_of_tag {s : State} (fits : s.RingFits) {j : Nat} (tag : (s.slot j).tag ≠ .empty) : s.station = .ready := by
  by_contra notReady
  exact tag (((ringFits_iff s).1 fits).2 notReady j)

theorem rateAlone_station (s : State) (t : Tariff) (i : Nat) (p : ParcelRecord) : (s.rateAlone t i p).station = s.station := by
  have written (r : RatingResult) (fs : List Flag) := (slotStep_ratedAt s i r fs).outside.2.2.1
  unfold State.rateAlone
  dsimp only
  split
  · exact (SlotStep.completeParcel _ _ _ _).outside.2.2.1.trans (written _ _)
  · exact (LotStep.startRequest _ _).station.trans (written _ _)

theorem rateConsignment_station (s : State) (t : Tariff) (is : List Nat) (service : Nat) :
    (s.rateConsignment t is service).station = s.station := by
  have written (l : List (Nat × Option RatingResult)) (fs : List Flag) : SlotStep s ((s.writeRatings l).raiseAll fs) :=
    (SlotStep.writeRatings s l).trans (SlotStep.raiseAll _ fs)
  have sought (s : State) : SlotStep s (is.foldl State.seek s) :=
    SlotStep.foldl State.seek (fun s i => SlotStep.updateSlot s i _) is s
  unfold State.rateConsignment
  dsimp only
  split
  · exact (LotStep.startRequest _ _).station.trans ((written _ _).trans (sought _)).outside.2.2.1
  · exact ((written _ _).trans (SlotStep.refuseRated _ _)).outside.2.2.1

theorem takeRecord_station (s : State) (t : Tariff) (i : Nat) (r : Record) : (s.takeRecord t i r).station = s.station := by
  have ended := Keeps.endOpenConsignment_station s
  have refused (is : List Nat) (why : Reason) (flag : Flag) := (refuseConsignment_outside s is why flag).1.2.2.1
  have alone := (SlotStep.refuseAlone s i).outside.2.2.1
  unfold State.takeRecord
  split
  · refine Eq.trans ?_ ended
    unfold State.takeScreen
    split <;> exact (SlotStep.completeScreen _ i _).outside.2.2.1
  · split
    · exact ended
    · unfold State.takeMiddle
      split
      · exact alone
      · split
        · exact refused _ _ _
        · rfl
    · unfold State.takeLast
      split
      · exact alone
      · dsimp only
        split
        · exact refused _ _ _
        · exact (rateConsignment_station _ _ _ _).trans (SlotStep.linkMembers s _ _ _).outside.2.2.1
    · exact (rateAlone_station _ _ _ _).trans ended

namespace RingKept

variable {s t u : State}

theorem trans (h : RingKept s t) (k : RingKept t u) : RingKept s u := fun fits =>
  have ⟨fits', stay⟩ := h fits
  have ⟨fits'', stay'⟩ := k fits'
  ⟨fits'', stay.trans stay'⟩

/-- The ring is left as it is; the station leaves READY with an empty ring alone. -/
theorem of_ring (ring : t.ring = s.ring)
    (left : t.station ≠ .ready → s.station ≠ .ready ∨ ∀ j, (s.slot j).tag = .empty) : RingKept s t := fun fits => by
  obtain ⟨inv, empty⟩ := (ringFits_iff s).1 fits
  refine ⟨(ringFits_iff t).2 ⟨inv.of_same ring, fun notReady j => ?_⟩, .of_ring (by rw [ring])⟩
  rw [State.slot, ring]
  exact (left notReady).elim (fun k => empty k j) fun k => k j

theorem of_same (ring : t.ring = s.ring) (station : t.station = s.station) : RingKept s t :=
  of_ring ring fun notReady => .inl (station ▸ notReady)

theorem refl (s : State) : RingKept s s := of_same rfl rfl

theorem of_lineStep (h : LineStep s t) : RingKept s t := of_same h.ring h.station

theorem of_lotStep (h : LotStep s t) : RingKept s t := fun fits => by
  obtain ⟨inv, empty⟩ := (ringFits_iff s).1 fits
  refine ⟨(ringFits_iff t).2 ⟨inv.lotStep h, fun notReady j => ?_⟩, .lotStep h⟩
  have before := empty (h.station ▸ notReady) j
  obtain e | ⟨seeking, -⟩ := h.slots j
  · rw [e, before]
  · rw [before] at seeking; cases seeking

/-- An operation that finds a slot that is not EMPTY. -/
theorem of_inv (found : s.RingFits → s.station = .ready) (station : t.station = s.station)
    (inv : RingInv s (fun _ => False) → RingInv t (fun _ => False) ∧ DoneStay s t) : RingKept s t := fun fits => by
  have kept := inv ((ringFits_iff s).1 fits).1
  exact ⟨(ringFits_iff t).2 ⟨kept.1, fun notReady => absurd (station.trans (found fits)) notReady⟩, kept.2⟩

theorem refuseOpen {c : Consignment} (opened : s.ring.consignment = some c) (why : Reason) (flag : Flag) :
    RingKept s (s.refuseConsignment c.members why flag) := by
  refine of_inv (fun fits => ?_) (refuseConsignment_outside s _ _ _).1.2.2.1 fun inv => ?_
  · have inv := ((ringFits_iff s).1 fits).1
    obtain ⟨j, member⟩ := List.exists_mem_of_ne_nil _ (inv.members c opened).1
    exact ready_of_tag fits (j := j) (by rw [(inv.grouped j).2 ⟨c, opened, member⟩]; nofun)
  · have owns := inv.ownsMembers opened
    obtain ⟨⟨-, others, -⟩, -⟩ := refuseConsignment_spec owns (inv.members c opened).1 why flag
    refine ⟨inv.refuses opened owns (fun _ => id) why flag, .of_others others fun j hj => ?_⟩
    obtain ⟨p, owned⟩ := owns.parcels j hj
    exact OwnsParcel.notDone owned

theorem watchdogExpiry (s : State) : RingKept s s.watchdogExpiry := by
  unfold State.watchdogExpiry
  split
  case h_1 opened => exact refuseOpen opened _ _
  case h_2 => exact refl s

theorem withdrawGrouped (s : State) : RingKept s s.withdrawGrouped := by
  unfold State.withdrawGrouped
  split
  case h_1 c opened => exact refuseOpen opened _ _
  case h_2 => exact refl s

theorem withdrawSeeking (s : State) (i : Nat) : RingKept s (s.withdrawSeeking i) :=
  (of_lotStep (LotStep.ofRecords s _ _ s.ordinal (by simp) (by simp) (Nat.le_refl _))).trans
    ((of_lotStep (LotStep.refuseSeeking (s.dropRequest i) _ _ _)).trans (of_same rfl rfl))

/-- A QUEUED slot withdrawn completes like one taken (R75). -/
theorem withdrawQueued {i : Nat} (queued : (s.slot i).tag = .queued) : RingKept s (s.withdrawQueued i) := by
  refine of_inv (fun fits => ready_of_tag fits (j := i) (by rw [queued]; nofun))
    (SlotStep.withdrawQueued s i).outside.2.2.1 fun inv => ?_
  have fits := inv.fits i
  cases record : (s.slot i).record with
  | none => exact absurd (fits.2.1 (by rw [queued]; nofun)) (by simp [record])
  | some r =>
    have free : (s.slot i).tag ≠ .grouped := by simp [queued]
    have stay {t : State} (others : ∀ j, j ≠ i → t.slot j = s.slot j) : DoneStay s t :=
      .of_others (is := [i]) (fun j hj => others j (by simpa using hj)) (by simp [queued])
    cases r with
    | parcel p =>
      have refuses := completeParcel_refused (ownsParcel_of_queued queued record) none .withdrawn
      have slot := (refuses.refused i List.mem_cons_self).1
      have left : (s.completeParcel i none (.refused .withdrawn)).completeScreen i .withdrawn =
          s.completeParcel i none (.refused .withdrawn) := completeScreen_parcel (p := p) (slot.2.1.trans record) _
      have others (j : Nat) (hj : j ≠ i) := refuses.others j (by simpa using hj)
      rw [State.withdrawQueued, left]
      exact ⟨(inv.completes refuses.ring refuses.length others free slot.1
        (fits_of_refusedAs slot (by rw [record]; rfl))).of_same rfl, (stay others).trans (.of_ring rfl)⟩
    | screen q =>
      have taken := Takes.of_screen (inv.mono fun _ => False.elim) queued record .withdrawn
      have completed := completeScreen_eq (engineOwns_of_queued queued) record .withdrawn
      rw [if_pos rfl] at completed
      have slots (j : Nat) : (s.completeScreen i .withdrawn).slot j = if j = i ∧ i < s.ring.slots.length then
          { s.slot i with tag := .complete, screenResult := some ⟨q.terminalTag, .withdrawn⟩ } else s.slot j := by
        rw [completed]
        exact slot_updateSlot s i j _
      have others (j : Nat) (hj : j ≠ i) := (slots j).trans (if_neg fun k => hj k.1)
      have self := (slots i).trans (if_pos ⟨rfl, lt_of_engineOwns (engineOwns_of_queued queued)⟩)
      rw [State.withdrawQueued, completeParcel_screen record]
      exact ⟨(inv.completes (by rw [completed]) (SlotStep.completeScreen s i _).length others free (by rw [self])
        (taken.inv.fits i)).of_same rfl, (stay others).trans (.of_ring rfl)⟩

theorem setResponse (s : State) (r : Option Response) : RingKept s { s with response := r } := of_same rfl rfl

theorem withdrawSlot (s : State) (i : Nat) : RingKept s (s.withdrawSlot i) := by
  unfold State.withdrawSlot
  split
  case h_1 queued => exact (withdrawQueued queued).trans (setResponse _ _)
  case h_2 => exact (withdrawGrouped s).trans (setResponse _ _)
  case h_3 => exact (withdrawSeeking s i).trans (setResponse _ _)
  all_goals exact setResponse _ _

/-- A record placed in the first slot past the window (R59). -/
theorem place (ready : s.station = .ready) (r : Record) (room : s.hasRoom = true) : RingKept s (s.place r) := by
  obtain ⟨empty, below⟩ := (hasRoom_iff s).1 room
  refine of_inv (fun _ => ready) rfl fun inv => ?_
  have inRing : s.ring.put < s.ring.slots.length := by rw [inv.length]; exact inv.put
  have slots (j : Nat) : (s.place r).slot j =
      if j = s.ring.put then { Slot.vacant with tag := .queued, record := some r } else s.slot j :=
    (slot_updateSlot s s.ring.put j _).trans (if_congr (and_iff_left inRing) rfl rfl)
  have self := (slots s.ring.put).trans (if_pos rfl)
  have others (j : Nat) (hj : j ≠ s.ring.put) := (slots j).trans (if_neg hj)
  have place (k : Nat) (hk : k < 8) : (s.ring.rate + k) % 8 = s.ring.put ↔ k = s.ring.pendingCount := by
    have position := inv.position
    have rate := inv.rate
    omega
  have ahead (k : Nat) : (s.place r).ahead k = (s.place r).slot ((s.ring.rate + k) % 8) := rfl
  refine ⟨⟨?_, Keeps.nextPosition_lt _, inv.rate, below, ?_, fun k hk tag => ?_, fun k hk _ => ?_, fun j => ?_, inv.watchdog,
    fun j => ?_, inv.members⟩, .of_others (is := [s.ring.put]) (fun j hj => others j (by simpa using hj)) (by simp [empty])⟩
  · exact (length_updateSlot s _ _).trans inv.length
  · have position := inv.position
    show (s.ring.put + 1) % 8 = (s.ring.rate + (s.ring.pendingCount + 1)) % 8
    omega
  · show k < s.ring.pendingCount + 1
    by_cases e : k = s.ring.pendingCount
    · omega
    · rw [ahead, others _ (mt (place k hk).1 e)] at tag
      exact (inv.queued k hk tag).trans (Nat.lt_succ_self _)
  · have bound : k < s.ring.pendingCount + 1 := hk
    rw [ahead]
    by_cases e : k = s.ring.pendingCount
    · rw [(place k (by omega)).2 e, self]
      simp
    · rw [others _ (mt (place k (by omega)).1 e)]
      exact inv.window k (by omega) id
  · by_cases e : j = s.ring.put
    · rw [e, self]
      exact ⟨nofun, fun _ => rfl, by simp [Slot.vacant], by simp⟩
    · rw [others j e]; exact inv.fits j
  · have grouped := inv.grouped j
    by_cases e : j = s.ring.put
    · have none : ¬ ∃ c, s.ring.consignment = some c ∧ j ∈ c.members := by rw [← grouped, e, empty]; nofun
      rw [e, self]
      exact ⟨nofun, fun member => absurd (e ▸ member) none⟩
    · rw [others j e]; exact grouped

theorem submitTaken (ready : s.station = .ready) (r : Submission) : RingKept s (s.submitTaken r) := by
  have submitRecord (r : Record) : RingKept s (s.submitRecord r) := by
    unfold State.submitRecord
    split
    case isTrue room => exact (place ready r room).trans (setResponse _ _)
    case isFalse => exact setResponse _ _
  cases r with
  | parcel p => exact submitRecord _
  | screen r => exact submitRecord _
  | unknownKind n => exact setResponse _ _

/-- The rate position takes its slot's record, or passes a slot that is not QUEUED (R61). -/
theorem rateAct (ready : s.station = .ready) (t : Tariff) (some' : 0 < s.ring.pendingCount) : RingKept s (s.rateAct t) := by
  refine fun fits => of_inv (fun _ => ready) ((?_ : (s.rateAct t).station = .ready).trans ready.symm) (fun inv => ?_) fits
  · unfold State.rateAct
    split
    · exact (takeRecord_station _ _ _ _).trans ready
    · exact ready
  have taken := inv.mono (taken' := (· = s.ring.rate)) fun _ => False.elim
  unfold State.rateAct
  split
  case h_1 r queued record =>
    have k := takeRecord_takes (s := s.counted) (taken.move rfl rfl rfl rfl (fun _ => id) (fun _ _ => id) inv.fits
      inv.watchdog inv.grouped inv.members) queued record t
    have count : 0 < (s.counted.takeRecord t s.ring.rate r).ring.pendingCount := some'.trans_eq k.count.symm
    have rate : (s.counted.takeRecord t s.ring.rate r).ring.rate = s.ring.rate := k.rate
    exact ⟨RingInv.advance (k.inv.mono fun j e => e.trans rate.symm)
      (fun queued => k.taken ((congrArg (fun j => (State.slot _ j).tag) rate).symm.trans queued)) count, k.done⟩
  case h_2 passed =>
    refine ⟨RingInv.advance taken (fun queued => ?_) some', .of_ring rfl⟩
    cases record : (s.slot s.ring.rate).record with
    | none => exact absurd ((inv.fits _).2.1 (by rw [queued]; nofun)) (by simp [record])
    | some r => exact passed r queued record

theorem ratePosition (s : State) : RingKept s s.ratePosition := by
  unfold State.ratePosition
  split
  case h_1 ready _ =>
    split
    case isTrue some' => exact rateAct ready _ some'
    case isFalse => exact refl s
  case h_2 => exact refl s

theorem settleLeaving (s : State) : RingKept s s.settleLeaving := by
  unfold State.settleLeaving
  split
  case isTrue h => exact of_ring rfl fun _ => .inl (by rw [h.1]; nofun)
  case isFalse => exact refl s

theorem leaveTaken (s : State) : RingKept s s.leaveTaken := by
  unfold State.leaveTaken
  split
  case isTrue empty =>
    have slots (j : Nat) : (s.slot j).tag = .empty :=
      (forall_slots_iff s (·.tag = .empty) rfl).1 (by simpa [Ring.isEmpty] using empty) j
    have left : RingKept s { s with station := .leaving } := of_ring rfl fun _ => .inr slots
    exact ((left.trans (of_lotStep (LotStep.leaveTable _))).trans (settleLeaving _)).trans (setResponse _ _)
  case isFalse => exact setResponse _ _

theorem acceptLotFrame (s : State) (f : HallFrame) (deliver : State → State) (lots : ∀ s, LotStep s (deliver s)) :
    RingKept s (s.acceptLotFrame f deliver) := by
  unfold State.acceptLotFrame
  split
  · exact refl s
  · split
    · exact ((of_lineStep (.takeFrame s f)).trans (of_lotStep (lots _))).trans (settleLeaving _)
    · exact of_lineStep (.takeFrame s f)

theorem advanceClock (s : State) : RingKept s s.advanceClock := by
  unfold State.advanceClock
  split
  · exact refl s
  · split
    case isTrue c _ _ =>
      have advanced : RingKept s { s with clock := some ⟨c.minute + 1, 0⟩ } := of_same rfl rfl
      exact advanced.trans (of_lotStep (LotStep.foldl _ LotStep.reachCutOff _ _))
    · exact refl s

theorem publishExpiry (s : State) (i : Nat) : RingKept s (s.publishExpiry i) := by
  apply of_lotStep
  unfold State.publishExpiry
  dsimp only
  split
  · split
    · exact (LotStep.updateEntry s i _).trans (LotStep.queueRecord _ _ _ _)
    · exact LotStep.updateEntry s i _
  · exact .refl s

theorem configureTaken (unconfigured : s.station = .unconfigured) (r : ConfigRecord) : RingKept s (s.configureTaken r) := by
  unfold State.configureTaken
  split
  · exact setResponse _ _
  · exact of_ring rfl fun _ => .inl (by rw [unconfigured]; nofun)

theorem endLoad (s : State) (f : Flash) : RingKept s (s.endLoad f) := by
  unfold State.endLoad
  split
  case h_1 f _ _ =>
    have loaded : RingKept s { s with
        store := .loaded f, screen := some f.defaultScreen, home := buildHome s.config f, line.state := .listen
        station := .ready } := of_ring rfl fun left => absurd rfl left
    exact loaded.trans (of_lotStep (LotStep.foldl _ (fun s _ => LotStep.testTally s _) _ _))
  case h_2 => exact refl s

theorem failLoad (s : State) (f : Flash) : RingKept s (s.failLoad f) := by
  unfold State.failLoad
  split
  case h_1 loading _ => exact of_ring rfl fun _ => .inl (by rw [loading]; nofun)
  case h_2 => exact refl s

theorem clearTaken (s : State) (l : FlagList) : RingKept s (s.clearTaken l) := by
  unfold State.clearTaken
  split <;> exact of_same rfl rfl

theorem exchange (s : State) (c : PortCommand) (action : State → State)
    (taken : availability c s.station = none → RingKept s (action s)) : RingKept s (s.exchange c action) :=
  State.exchange_induction s c action (setResponse s) fun _ => taken

theorem whenRunning (s : State) (action : State → State) (acts : RingKept s (action s)) : RingKept s (s.whenRunning action) :=
  State.whenRunning_induction s action (refl s) fun _ => acts

end RingKept

theorem exec_ringKept {c : Instr} {s t : State} (h : exec c s = .next t) (notFull : c.isFullReset = false)
    (notWarm : c ≠ .resetWarm) (notCollect : ∀ n, c ≠ .collect n) : RingKept s t := by
  cases c with
  | configure r => cases h; exact .exchange s _ _ fun taken => .configureTaken (availability_configure taken) r
  | submit r => cases h; exact .exchange s _ _ fun taken => .submitTaken (availability_submit taken) r
  | collect i => exact absurd rfl (notCollect i)
  | peek i =>
    cases h
    exact .exchange s _ _ fun _ =>
      withSlot_induction s i (fun s => s.answer (ok (.slot (s.slotView i)))) (.setResponse s) fun _ => .setResponse s _
  | withdraw i => cases h; exact .exchange s _ _ fun _ => withSlot_induction s i _ (.setResponse s) fun _ => .withdrawSlot s i
  | status => cases h; exact .exchange s _ (fun s => s.answer (ok (.status s.statusView))) fun _ => .setResponse s _
  | clearSummary l => cases h; exact .exchange s _ _ fun _ => .clearTaken s l
  | lotView lot => cases h; exact .exchange s _ (fun s => s.answer (ok (.lot (s.lotView lot)))) fun _ => .setResponse s _
  | leave => cases h; exact .exchange s _ _ fun _ => .leaveTaken s
  | resetWarm => exact absurd rfl notWarm
  | resetFull => cases notFull
  | unknownCommand f =>
    cases h
    cases f with
    | code n | length n m =>
      show RingKept s (if s.held then { s with response := none } else s.answer (badArg 1 0))
      split <;> exact .setResponse s _
    | resetArgument n => exact .exchange s _ (fun s => s.answer (badArg 4 0)) fun _ => .setResponse s _
  | commandDiscarded => cases h; exact .setResponse s none
  | powerOnReset => cases notFull
  | rstnRise => cases h; exact .of_same rfl rfl
  | loadCompletes f => cases h; exact .whenRunning s _ (.endLoad s f)
  | loadFaults f => cases h; exact .whenRunning s _ (.failLoad s f)
  | ratePositionActs => cases h; exact .whenRunning s _ (.ratePosition s)
  | watchdogExpires => cases h; exact .whenRunning s _ (.watchdogExpiry s)
  | clockAdvance => cases h; exact .whenRunning s _ (.advanceClock s)
  | fetchTimerExpires r =>
    cases h
    cases r with
    | home lot => exact .whenRunning s _ (.of_lotStep (LotStep.homeExpiry s lot))
    | entry i => exact .whenRunning s _ (.of_lotStep (LotStep.entryExpiry s i))
  | publishTimerExpires i => cases h; exact .whenRunning s _ (.publishExpiry s i)
  | faultTimerExpires => cases h; exact .whenRunning s _ (.of_lineStep (.faultExpiry s))
  | beaconTimerExpires => cases h; exact .whenRunning s _ (.of_lineStep (.beaconExpiry s))
  | absenceTimerExpires n => cases h; exact .whenRunning s _ (.of_lineStep (.absenceExpiry s n))
  | idleIntervalSeen => cases h; exact .whenRunning s _ (.of_lineStep (.seeIdle s))
  | transmitStart => cases h; exact .whenRunning s _ (.of_lineStep (.startFrame s))
  | frameWinsLine => cases h; exact .whenRunning s _ (.of_lineStep (.winLine s))
  | readbackFailure => cases h; exact .whenRunning s _ (.of_lineStep (.readbackFails s))
  | readbackDuplicate => cases h; exact .whenRunning s _ (.of_lineStep (.readbackOther s))
  | frameTruncated => cases h; exact .refl s
  | frameRejected r => cases h; exact .whenRunning s _ (.of_lineStep (.hearRejected s _))
  | handoverAccepted n b =>
    cases h
    refine .whenRunning s _ ?_
    unfold State.acceptHandover
    split
    · exact .of_lineStep (.hearRejected s _)
    · exact .acceptLotFrame s _ _ fun s' => LotStep.onHandover s' n b _
  | reclaimAccepted n lot f => cases h; exact .whenRunning s _ (.acceptLotFrame s _ _ fun s' => LotStep.onReclaim s' lot f _)
  | tallyAccepted n lot f => cases h; exact .whenRunning s _ (.acceptLotFrame s _ _ fun s' => LotStep.onTally s' lot f)
  | fetchAccepted n lot => cases h; exact .whenRunning s _ (.acceptLotFrame s _ _ fun s' => LotStep.onFetch s' n lot _)
  | stallAccepted n lot => cases h; exact .whenRunning s _ (.acceptLotFrame s _ _ fun s' => LotStep.onStall s' lot)
  | noticeAccepted n lot f => cases h; exact .whenRunning s _ (.acceptLotFrame s _ _ fun s' => LotStep.onNotice s' lot f _ _)
  | helloAccepted n e k => cases h; exact .whenRunning s _ (.of_lineStep (.acceptHello s _ e))
  | unknownKindFrameAccepted n bytes =>
    cases h
    refine .whenRunning s (fun s => if s.line.state = .off then s else s.takeFrame ⟨n, .unknown bytes⟩) ?_
    split
    · exact .refl s
    · exact .of_lineStep (.takeFrame s _)
  | arbitrationLost => cases h; exact .whenRunning s _ (.of_lineStep (.loseArbitration s))

/-- Settles O11. -/
theorem doneSlotsWaitForTheTerminal : Obligations.DoneSlotsWaitForTheTerminal :=
  fun _ _ _ i fits h notFull notWarm notCollect done => (exec_ringKept h notFull notWarm notCollect fits).2 i done

/-- COLLECT empties DONE slots alone (R73). -/
theorem ringFits_emptySlots {s : State} (fits : s.RingFits) (is : List Nat) : (s.emptySlots is).RingFits := by
  obtain ⟨inv, empty⟩ := (ringFits_iff s).1 fits
  have step := SlotStep.emptySlots s is
  have slots := slot_emptySlots s is
  have tags (j : Nat) (tag : ((s.emptySlots is).slot j).tag ≠ .empty) : (s.emptySlots is).slot j = s.slot j := by
    rw [slots] at tag ⊢
    split at tag
    · exact absurd rfl tag
    case isFalse other => exact if_neg other
  have unchanged (j : Nat) {tag : Tag} (some' : tag ≠ .empty) (h : ((s.emptySlots is).slot j).tag = tag) :
      (s.slot j).tag = tag := by
    rwa [tags j (h ▸ some')] at h
  refine (ringFits_iff _).2 ⟨?_, fun notReady j => ?_⟩
  · refine inv.move step.length (by rw [step.ring]) (by rw [step.ring]) (by rw [step.ring]) (fun j => unchanged j nofun)
      (fun j _ => Or.imp (unchanged j nofun) (unchanged j nofun)) (fun j => ?_) (by rw [step.ring]; exact inv.watchdog)
      (fun j => ?_) (by rw [step.ring]; exact inv.members)
    · rw [slots]
      split
      · exact vacant_fits
      · exact inv.fits j
    · have consignment : (s.emptySlots is).ring.consignment = s.ring.consignment := by rw [step.ring]
      rw [consignment, ← inv.grouped j]
      refine ⟨unchanged j nofun, fun grouped => ?_⟩
      rw [slots, if_neg (by simp [grouped])]
      exact grouped
  · rw [slots]
    split
    · rfl
    · exact empty (step.outside.2.2.1 ▸ notReady) j

theorem exec_ringFits {c : Instr} {s t : State} (h : exec c s = .next t) (notFull : c.isFullReset = false)
    (fits : s.RingFits) : t.RingFits := by
  have answered (r : Option Response) : State.RingFits { s with response := r } := (RingKept.setResponse s r fits).1
  by_cases warm : c = .resetWarm
  · obtain rfl := warm
    cases h
    refine State.exchange_induction s _ _ answered fun _ _ => ?_
    have step : LotStep _ s.warmReset := LotStep.foldl _ Keeps.requeueHome _ _
    have kept := RingKept.of_lotStep step (ringFits_of_cleared rfl)
    exact (RingKept.setResponse _ _ kept.1).1
  by_cases collect : ∃ n, c = .collect n
  · obtain ⟨n, rfl⟩ := collect
    cases h
    refine State.exchange_induction s _ _ answered fun _ _ => withSlot_induction s n _ answered fun _ => ?_
    unfold State.collectSlot
    split
    · exact (RingKept.setResponse _ _ (ringFits_emptySlots fits _)).1
    · exact answered _
  · exact (exec_ringKept h notFull warm (fun n e => collect ⟨n, e⟩) fits).1

theorem ringFits_tick {s : State} (fits : s.RingFits) : s.tick.RingFits := by
  obtain ⟨inv, empty⟩ := (ringFits_iff s).1 fits
  refine (ringFits_iff _).2 ⟨inv.move rfl rfl rfl rfl (fun _ => id) (fun _ _ => id) inv.fits ?_ inv.grouped inv.members, empty⟩
  exact (Option.isSome_map ..).trans inv.watchdog

/-- Settles O7: the ring's description is kept by every command and by the idle step. -/
theorem ringFitsAfterEveryStep : Obligations.RingFitsAfterEveryStep := fun s _ hs h =>
  invariant_of_commands (P := State.RingFits) (fun _ _ _ => ringFits_of_cleared rfl)
    (fun s _ _ fits => (RingKept.of_same (s := s) rfl rfl fits).1) (fun _ => ringFits_tick)
    (fun _ _ _ h full => exec_ringFits h full) h hs

end Sys2Proof.Machine
end

section
/-! Lookups of home records and entries, and what the first one found of a lot is. -/

namespace Sys2Proof.Machine

/-! ### Home records (R98) -/

theorem findHome_some {s : State} {lot : Nat} {r : HomeRecord} (h : s.findHome lot = some r) : r ∈ s.home ∧ r.lot = lot :=
  ⟨List.mem_of_find?_eq_some h, by simpa using List.find?_some h⟩

/-- In a home store of distinct lots the record found is the lot's one record. -/
theorem findHome_of_mem {s : State} (distinct : s.HomeDistinct) {r : HomeRecord} (h : r ∈ s.home) :
    s.findHome r.lot = some r := by
  have unique : ∀ home : List HomeRecord, (home.map (·.lot)).Nodup → r ∈ home → home.find? (·.lot == r.lot) = some r := by
    intro home
    induction home with
    | nil => nofun
    | cons x xs ih =>
      rintro distinct member
      obtain ⟨fresh, distinct⟩ := List.nodup_cons.1 distinct
      by_cases e : x.lot = r.lot
      · obtain rfl | later := List.mem_cons.1 member
        · simp
        · exact absurd (List.mem_map_of_mem (f := (·.lot)) later) (e ▸ fresh)
      · obtain rfl | later := List.mem_cons.1 member
        · exact absurd rfl e
        · rw [List.find?_cons_of_neg (by simpa using e)]
          exact ih distinct later
  exact unique s.home distinct h

theorem findHome_unique {s : State} (distinct : s.HomeDistinct) {lot : Nat} {r r' : HomeRecord}
    (h : s.findHome lot = some r) (member : r' ∈ s.home) (same : r'.lot = lot) : r' = r := by
  have found := findHome_of_mem distinct member
  rw [same, h] at found
  exact (Option.some.inj found).symm

theorem findHome_updateHome (s : State) (lot other : Nat) {f : HomeRecord → HomeRecord} (keeps : ∀ r, (f r).lot = r.lot) :
    (s.updateHome lot f).findHome other = if other = lot then (s.findHome lot).map f else s.findHome other := by
  have found : ∀ home : List HomeRecord, (home.map (fun r => if r.lot = lot then f r else r)).find? (·.lot == other) =
      if other = lot then (home.find? (·.lot == lot)).map f else home.find? (·.lot == other) := by
    intro home
    induction home with
    | nil => simp
    | cons x xs ih =>
      by_cases e : x.lot = lot
      · by_cases e' : other = lot
        · simp [e, e', keeps]
        · have e'' : ¬ lot = other := fun k => e' k.symm
          simpa [e, e', e'', keeps] using ih
      · by_cases e' : other = lot
        · simpa [e, e'] using ih
        · by_cases e'' : x.lot = other
          · simp [e'', e']
          · simpa [e, e', e''] using ih
  exact found s.home

/-! ### Entries (R101, R102) -/

theorem entry_of_ge (s : State) (i : Nat) (h : ¬ i < s.table.length) : s.entry i = LotEntry.cleared := by
  simp [State.entry, List.getD_eq_getElem?_getD, List.getElem?_eq_none (Nat.le_of_not_lt h)]

theorem entry_eq_getElem (s : State) (i : Nat) (h : i < s.table.length) : s.entry i = s.table[i] :=
  List.getD_eq_getElem _ _ h

theorem entry_mem (s : State) (i : Nat) (h : i < s.table.length) : s.entry i ∈ s.table :=
  entry_eq_getElem s i h ▸ List.getElem_mem h

theorem entry_updateEntry (s : State) (i j : Nat) (f : LotEntry → LotEntry) :
    (s.updateEntry i f).entry j = if j = i ∧ i < s.table.length then f (s.entry i) else s.entry j := by
  simp only [State.updateEntry, State.entry, List.getD_eq_getElem?_getD, List.getElem?_modify]
  by_cases e : j = i
  · subst e
    by_cases inTable : j < s.table.length <;> simp [inTable]
  · have e' : ¬ i = j := fun k => e k.symm
    simp [e, e']

theorem length_updateEntry (s : State) (i : Nat) (f : LotEntry → LotEntry) :
    (s.updateEntry i f).table.length = s.table.length := List.length_modify ..

/-- An entry changed where it keeps a field keeps the field. -/
theorem entry_updateEntry_field {α : Type} (s : State) (i j : Nat) {f : LotEntry → LotEntry} (field : LotEntry → α)
    (keeps : ∀ e, field (f e) = field e) : field ((s.updateEntry i f).entry j) = field (s.entry j) := by
  rw [entry_updateEntry]
  split
  case isTrue h => rw [keeps, h.1]
  case isFalse => rfl

theorem entryOf_some {s : State} {lot i : Nat} (h : s.entryOf lot = some i) :
    i < s.table.length ∧ (s.entry i).lot = some lot := by
  obtain ⟨inTable, named, -⟩ := List.findIdx?_eq_some_iff_getElem.1 h
  exact ⟨inTable, by rw [entry_eq_getElem s i inTable]; simpa using named⟩

theorem entryOf_none {s : State} {lot : Nat} : s.entryOf lot = none ↔ ∀ e ∈ s.table, e.lot ≠ some lot := by
  simp [State.entryOf]

theorem incomingOf_some {s : State} {lot i : Nat} (h : s.incomingOf lot = some i) :
    i < s.table.length ∧ ∃ c, (s.entry i).incoming = some c ∧ c.lot = lot := by
  obtain ⟨inTable, named, -⟩ := List.findIdx?_eq_some_iff_getElem.1 h
  refine ⟨inTable, ?_⟩
  rw [entry_eq_getElem s i inTable]
  cases held : s.table[i].incoming with
  | none => rw [held] at named; cases named
  | some c => exact ⟨c, rfl, by simpa [held] using named⟩

theorem incomingOf_none {s : State} {lot : Nat} :
    s.incomingOf lot = none ↔ ∀ e ∈ s.table, ∀ c, e.incoming = some c → c.lot ≠ lot := by
  rw [State.incomingOf, List.findIdx?_eq_none_iff]
  refine forall₂_congr fun e _ => ?_
  cases e.incoming <;> simp

theorem mem_names {e : LotEntry} {lot : Nat} :
    lot ∈ e.names ↔ e.lot = some lot ∨ ∃ c, e.incoming = some c ∧ c.lot = lot := by
  simp [LotEntry.names]

/-- A lot that neither an entry nor an incoming lot names. -/
theorem notMem_names {s : State} {lot : Nat} (entry : s.entryOf lot = none) (incoming : s.incomingOf lot = none) :
    lot ∉ s.table.flatMap LotEntry.names := by
  simp only [List.mem_flatMap, mem_names, not_exists, not_and, not_or]
  exact fun e he => ⟨entryOf_none.1 entry e he, fun c hc => incomingOf_none.1 incoming e he c hc⟩

/-- No two entries name one lot. -/
theorem names_unique {s : State} (distinct : (s.table.flatMap LotEntry.names).Nodup) {lot i j : Nat}
    (hi : lot ∈ (s.entry i).names) (hj : lot ∈ (s.entry j).names) : i = j := by
  have inTable (k : Nat) (hk : lot ∈ (s.entry k).names) : k < s.table.length := by
    by_contra out
    rw [entry_of_ge s k out] at hk
    cases hk
  have apart := (List.nodup_flatMap.1 distinct).2
  rw [List.pairwise_iff_getElem] at apart
  by_contra differ
  rw [entry_eq_getElem s i (inTable i hi)] at hi
  rw [entry_eq_getElem s j (inTable j hj)] at hj
  obtain less | less := Nat.lt_or_gt_of_ne differ
  · exact apart i j _ _ less hi hj
  · exact apart j i _ _ less hj hi

theorem recordOf_home {s : State} {lot l : Nat} (h : s.recordOf lot = some (.home l)) :
    l = lot ∧ ∃ r, s.findHome lot = some r := by
  unfold State.recordOf at h
  split at h
  case h_1 r found =>
    cases h
    exact ⟨rfl, r, found⟩
  case h_2 =>
    obtain ⟨i, -, e⟩ := Option.map_eq_some_iff.1 h
    cases e

theorem recordOf_entry {s : State} {lot i : Nat} (h : s.recordOf lot = some (.entry i)) :
    s.entryOf lot = some i ∧ s.findHome lot = none := by
  unfold State.recordOf at h
  split at h
  case h_1 => cases h
  case h_2 none =>
    obtain ⟨j, found, e⟩ := Option.map_eq_some_iff.1 h
    cases e
    exact ⟨found, none⟩

/-- One entry changed: the names stay distinct when each of its new names is one of its own or is no entry's. -/
theorem nodup_names_modify {table : List LotEntry} {i : Nat} {f : LotEntry → LotEntry}
    (h : (table.flatMap LotEntry.names).Nodup)
    (new : ∀ e, table[i]? = some e → (f e).names.Nodup ∧
      ∀ n ∈ (f e).names, n ∈ e.names ∨ n ∉ table.flatMap LotEntry.names) :
    ((table.modify i f).flatMap LotEntry.names).Nodup := by
  induction table generalizing i with
  | nil => simp
  | cons x xs ih =>
    simp only [List.flatMap_cons, List.nodup_append] at h ⊢
    obtain ⟨first, rest, apart⟩ := h
    cases i with
    | zero =>
      obtain ⟨nodup, own⟩ := new x rfl
      simp only [List.modify_zero_cons, List.flatMap_cons, List.nodup_append]
      refine ⟨nodup, rest, fun a ha b hb e => ?_⟩
      obtain old | fresh := own a ha
      · exact apart a old b hb e
      · exact fresh (List.mem_append_right _ (e ▸ hb))
    | succ i =>
      simp only [List.modify_succ_cons, List.flatMap_cons, List.nodup_append]
      refine ⟨first, ih rest fun e he => ?_, fun a ha b hb e => ?_⟩
      · obtain ⟨nodup, own⟩ := new e he
        exact ⟨nodup, fun n hn => (own n hn).imp_right fun fresh member => fresh (List.mem_append_right _ member)⟩
      · obtain ⟨y, hy, hb⟩ := List.mem_flatMap.1 hb
        obtain ⟨j, hj⟩ := List.getElem?_of_mem hy
        rw [List.getElem?_modify] at hj
        by_cases k : i = j
        · obtain ⟨z, hz, rfl⟩ := Option.map_eq_some_iff.1 hj
          rw [if_pos k] at hb
          obtain old | fresh := (new z (by rw [k]; exact hz)).2 b hb
          · exact apart a ha b (List.mem_flatMap.2 ⟨z, List.mem_of_getElem? hz, old⟩) e
          · exact fresh (List.mem_append_left _ (e ▸ ha))
        · obtain ⟨z, hz, rfl⟩ := Option.map_eq_some_iff.1 hj
          rw [if_neg k] at hb
          exact apart a ha b (List.mem_flatMap.2 ⟨z, List.mem_of_getElem? hz, hb⟩) e

/-! ### Waiting lists (R108) -/

theorem mem_joinWaiting {q r : Request} {qs : List Request} : r ∈ joinWaiting q qs ↔ r = q ∨ r ∈ qs := by
  induction qs with
  | nil => simp [joinWaiting]
  | cons x xs ih =>
    unfold joinWaiting
    split
    · simp
    · simp only [List.mem_cons, ih]
      tauto

theorem Waits.nil (lot : Nat) : Waits lot [] := ⟨List.Pairwise.nil, nofun⟩

theorem Waits.filter {lot : Nat} {qs : List Request} (h : Waits lot qs) (p : Request → Bool) : Waits lot (qs.filter p) :=
  ⟨h.1.filter p, fun q hq => h.2 q (List.mem_filter.1 hq).1⟩

/-- A request joins the list at its place by its taking order. -/
theorem Waits.join {lot : Nat} {qs : List Request} (h : Waits lot qs) (q : Request) :
    Waits lot (joinWaiting (q.waitsOn lot) qs) := by
  obtain ⟨ordered, onLot⟩ := h
  refine ⟨?_, fun r hr => (mem_joinWaiting.1 hr).elim (fun e => e ▸ rfl) (onLot r)⟩
  clear onLot
  induction qs with
  | nil => simp [joinWaiting]
  | cons x xs ih =>
    obtain ⟨first, rest⟩ := List.pairwise_cons.1 ordered
    unfold joinWaiting
    split
    case isTrue earlier =>
      refine List.pairwise_cons.2 ⟨fun r hr => ?_, ordered⟩
      obtain rfl | later := List.mem_cons.1 hr
      · exact Nat.le_of_lt earlier
      · exact (Nat.le_of_lt earlier).trans (first r later)
    case isFalse later =>
      refine List.pairwise_cons.2 ⟨fun r hr => ?_, ih rest⟩
      obtain rfl | member := mem_joinWaiting.1 hr
      · exact Nat.le_of_not_lt later
      · exact first r member

theorem Waits.single (lot : Nat) (q : Request) : Waits lot [q.waitsOn lot] := (Waits.nil lot).join q

end Sys2Proof.Machine
end

section
/-! The lot records (R98, R102, R103, R108): what each operation of the lot controller keeps of their description, and of
the ENDED home records (R99, R114). -/

namespace Sys2Proof.Machine

/-! ### The description of one record -/

/-- What `LotsFit` says of one home record. -/
def State.HomeFits (s : State) (r : HomeRecord) : Prop :=
  Waits r.lot r.waiting ∧ (r.state = .atHome ∨ r.state = .ended → s.WithinPlan r.lot r.figures) ∧
    ∀ f, r.lastSeen = some f → s.WithinPlan r.lot f

/-- What `LotsFit` says of one entry. -/
def State.EntryFits (s : State) (e : LotEntry) : Prop :=
  (∀ lot ∈ e.names, s.homeOf lot ≠ s.own) ∧ (∀ lot, e.lot = some lot → Waits lot e.waiting) ∧
    (∀ c, e.incoming = some c → Waits c.lot c.waiting) ∧
    ∀ lot f, e.lot = some lot → e.figures = some f → s.WithinPlan lot f

/-- What `LotsFit` says of the lot records, apart from the station state. -/
structure LotsInv (s : State) : Prop where
  names : (s.table.flatMap LotEntry.names).Nodup
  home : ∀ r ∈ s.home, s.HomeFits r
  entries : ∀ e ∈ s.table, s.EntryFits e

theorem lotsFit_iff (s : State) :
    s.LotsFit ↔ LotsInv s ∧ (s.inService = false → s.home = [] ∧ ∀ e ∈ s.table, e = LotEntry.cleared) := by
  constructor
  · rintro ⟨names, foreign, homeWaits, waits, incoming, home, figures, still⟩
    exact ⟨⟨names, fun r hr => ⟨homeWaits r hr, home r hr⟩,
      fun e he => ⟨foreign e he, waits e he, incoming e he, figures e he⟩⟩, still⟩
  · rintro ⟨⟨names, home, entries⟩, still⟩
    exact ⟨names, fun e he => (entries e he).1, fun r hr => (home r hr).1, fun e he => (entries e he).2.1,
      fun e he => (entries e he).2.2.1, fun r hr => (home r hr).2, fun e he => (entries e he).2.2.2, still⟩

theorem withinPlan_congr {s t : State} (store : t.store = s.store) (lot : Nat) (f : Figures) :
    t.WithinPlan lot f ↔ s.WithinPlan lot f := by
  rw [State.WithinPlan, State.WithinPlan, store]

theorem homeOf_congr {s t : State} (store : t.store = s.store) (lot : Nat) : t.homeOf lot = s.homeOf lot := by
  rw [State.homeOf, State.homeOf, State.planLot, State.planLot, State.tariff, State.tariff, store]

theorem own_congr {s t : State} (configuration : t.configuration = s.configuration) : t.own = s.own := by
  rw [State.own, State.own, State.config, State.config, configuration]

theorem homeFits_congr {s t : State} (store : t.store = s.store) (r : HomeRecord) : t.HomeFits r ↔ s.HomeFits r := by
  simp only [State.HomeFits, withinPlan_congr store]

theorem entryFits_congr {s t : State} (store : t.store = s.store) (configuration : t.configuration = s.configuration)
    (e : LotEntry) : t.EntryFits e ↔ s.EntryFits e := by
  simp only [State.EntryFits, withinPlan_congr store, homeOf_congr store, own_congr configuration]

theorem entryFits_cleared (s : State) : s.EntryFits LotEntry.cleared := ⟨nofun, nofun, nofun, nofun⟩

theorem LotsInv.entry {s : State} (h : LotsInv s) (i : Nat) : s.EntryFits (s.entry i) := by
  by_cases inTable : i < s.table.length
  · exact h.entries _ (entry_mem s i inTable)
  · exact entry_of_ge s i inTable ▸ entryFits_cleared s

/-- Figures within the plan capacity, whatever is carried (R187). -/
theorem withinPlan_upTo {s : State} {lot : Nat} {d : Departure} (h : s.planLot lot = some d) (f : Figures) :
    s.WithinPlan lot (f.upTo d.capacity) := by
  intro t store
  rw [State.planLot, State.tariff, store] at h
  exact ⟨d, List.mem_of_find?_eq_some h, by simpa using List.find?_some h, Nat.min_le_right _ _, Nat.min_le_right _ _,
    Nat.min_le_right _ _⟩

theorem withinPlan_zero {s : State} {lot : Nat} {d : Departure} (h : s.planLot lot = some d) : s.WithinPlan lot .zero := by
  intro t store
  rw [State.planLot, State.tariff, store] at h
  exact ⟨d, List.mem_of_find?_eq_some h, by simpa using List.find?_some h, Nat.zero_le _, Nat.zero_le _, Nat.zero_le _⟩

theorem withinPlan_lessen {s : State} {lot : Nat} {f : Figures} (h : s.WithinPlan lot f) (q : Figures) :
    s.WithinPlan lot (f.lessen q) := fun t store =>
  have ⟨d, member, same, weight, litres, pieces⟩ := h t store
  ⟨d, member, same, (Nat.sub_le _ _).trans weight, (Nat.sub_le _ _).trans litres, (Nat.sub_le _ _).trans pieces⟩

/-! ### What an operation keeps -/

/-- What an operation of the lot controller keeps: plan, configuration, the lots of the home store, the description of the
lot records, and each ENDED record of a store of distinct lots. -/
structure LotsKept (s t : State) : Prop where
  store : t.store = s.store
  configuration : t.configuration = s.configuration
  lots : t.home.map (·.lot) = s.home.map (·.lot)
  inv : LotsInv s → LotsInv t
  ended : s.HomeDistinct → ∀ r ∈ s.home, r.state = .ended →
    ∃ r' ∈ t.home, r'.lot = r.lot ∧ r'.state = .ended ∧ r'.figures = r.figures

/-- The record may change: no home record of the lot is ENDED. -/
def Live (s : State) (lot : Nat) : Prop := s.HomeDistinct → ∀ r ∈ s.home, r.lot = lot → r.state ≠ .ended

theorem live_of_found {s : State} {lot : Nat} {r : HomeRecord} (found : s.findHome lot = some r)
    (notEnded : r.state ≠ .ended) : Live s lot := fun distinct r' member same =>
  findHome_unique distinct found member same ▸ notEnded

theorem slotStep_completeSeeking (s : State) (i : Nat) (d : Option DispatchFields) (c : Completion) :
    SlotStep s (s.completeSeeking i d c) := by
  unfold State.completeSeeking
  split
  · exact .completeParcel s i d c
  · exact .refl s

theorem slotStep_refuseSeeking (s : State) (is : List Nat) (d : Option DispatchFields) (why : Reason) :
    SlotStep s (s.refuseSeeking is d why) := .foldl _ (fun s i => slotStep_completeSeeking s i d _) is s

theorem slotStep_labelMembers (s : State) (d : DispatchFields) (b : Bytes) (n : Nat) (is : List Nat) :
    SlotStep s (s.labelMembers d b n is) := by
  induction is generalizing s n with
  | nil => exact .refl s
  | cons i is ih => exact (slotStep_completeSeeking s i _ _).trans (ih _ _)

namespace LotsKept

variable {s t u : State}

theorem trans (h : LotsKept s t) (k : LotsKept t u) : LotsKept s u where
  store := k.store.trans h.store
  configuration := k.configuration.trans h.configuration
  lots := k.lots.trans h.lots
  inv x := k.inv (h.inv x)
  ended distinct r member isEnded := by
    obtain ⟨r', member', lot', state', figures'⟩ := h.ended distinct r member isEnded
    have distinct' : t.HomeDistinct := by rw [State.HomeDistinct, h.lots]; exact distinct
    obtain ⟨r'', member'', lot'', state'', figures''⟩ := k.ended distinct' r' member' state'
    exact ⟨r'', member'', lot''.trans lot', state'', figures''.trans figures'⟩

theorem of_same (store : t.store = s.store) (configuration : t.configuration = s.configuration) (home : t.home = s.home)
    (table : t.table = s.table) : LotsKept s t where
  store := store
  configuration := configuration
  lots := by rw [home]
  inv h := ⟨table ▸ h.names, fun r hr => (homeFits_congr store r).2 (h.home r (home ▸ hr)),
    fun e he => (entryFits_congr store configuration e).2 (h.entries e (table ▸ he))⟩
  ended _ r member isEnded := ⟨r, home ▸ member, rfl, isEnded, rfl⟩

theorem refl (s : State) : LotsKept s s := of_same rfl rfl rfl rfl

theorem of_slotStep (h : SlotStep s t) : LotsKept s t := by
  obtain ⟨-, -, -, configuration, -, -, -, store, -, home, table, -⟩ := h.outside
  exact of_same store configuration home table

theorem nextOrdinal (s : State) : LotsKept s s.nextOrdinal := of_same rfl rfl rfl rfl

theorem raise (s : State) (f : Flag) : LotsKept s (s.raise f) := of_same rfl rfl rfl rfl

/-- Home records of a lot changed. -/
theorem updateHome (s : State) (lot : Nat) (f : HomeRecord → HomeRecord) (keeps : ∀ r, (f r).lot = r.lot)
    (fits : LotsInv s → ∀ r, r.lot = lot → s.HomeFits r → s.HomeFits (f r))
    (ended : s.HomeDistinct → ∀ r ∈ s.home, r.lot = lot → r.state = .ended →
      (f r).state = .ended ∧ (f r).figures = r.figures) : LotsKept s (s.updateHome lot f) where
  store := rfl
  configuration := rfl
  lots := (LotStep.updateHome s lot f keeps).homeLots
  inv h := by
    refine ⟨h.names, fun r' hr' => ?_, h.entries⟩
    obtain ⟨r, hr, rfl⟩ := List.mem_map.1 hr'
    refine (homeFits_congr (t := s.updateHome lot f) (s := s) rfl _).2 ?_
    split
    case isTrue e => exact fits h r e (h.home r hr)
    case isFalse => exact h.home r hr
  ended distinct r member isEnded := by
    refine ⟨_, List.mem_map_of_mem member, ?_⟩
    split
    case isTrue e => exact ⟨keeps r, ended distinct r member e isEnded⟩
    case isFalse => exact ⟨rfl, isEnded, rfl⟩

theorem updateHome_live (s : State) (lot : Nat) (f : HomeRecord → HomeRecord) (keeps : ∀ r, (f r).lot = r.lot)
    (fits : ∀ r, r.lot = lot → s.HomeFits r → s.HomeFits (f r)) (live : Live s lot) : LotsKept s (s.updateHome lot f) :=
  updateHome s lot f keeps (fun _ => fits) fun distinct r member e isEnded => absurd isEnded (live distinct r member e)

/-- Frames, timers, queue and marks are not described. -/
theorem updateHome_rest (s : State) (lot : Nat) (f : HomeRecord → HomeRecord)
    (same : ∀ r, (f r).lot = r.lot ∧ (f r).state = r.state ∧ (f r).figures = r.figures ∧ (f r).lastSeen = r.lastSeen ∧
      (f r).waiting = r.waiting) : LotsKept s (s.updateHome lot f) :=
  updateHome s lot f (fun r => (same r).1)
    (fun _ r _ h => by
      obtain ⟨lot, state, figures, lastSeen, waiting⟩ := same r
      rw [State.HomeFits, lot, state, figures, lastSeen, waiting]
      exact h)
    fun _ r _ _ isEnded => ⟨(same r).2.1.trans isEnded, (same r).2.2.1⟩

/-- One entry changed: each name of its new form is its own or is no entry's. -/
theorem updateEntry (s : State) (i : Nat) (f : LotEntry → LotEntry)
    (names : LotsInv s → (f (s.entry i)).names.Nodup ∧
      ∀ n ∈ (f (s.entry i)).names, n ∈ (s.entry i).names ∨ n ∉ s.table.flatMap LotEntry.names)
    (fits : LotsInv s → s.EntryFits (s.entry i) → s.EntryFits (f (s.entry i))) : LotsKept s (s.updateEntry i f) where
  store := rfl
  configuration := rfl
  lots := rfl
  inv h := by
    refine ⟨nodup_names_modify h.names fun e he => ?_, h.home, fun e he => ?_⟩
    · have e' : s.entry i = e := by rw [State.entry, List.getD_eq_getElem?_getD, he]; rfl
      exact e' ▸ names h
    · refine (entryFits_congr (t := s.updateEntry i f) (s := s) rfl rfl _).2 ?_
      obtain ⟨j, inTable, rfl⟩ := List.mem_iff_getElem.1 he
      have entry := entry_updateEntry s i j f
      rw [entry_eq_getElem _ j inTable] at entry
      rw [entry]
      split
      · exact fits h (h.entry i)
      · exact h.entry j
  ended _ r member isEnded := ⟨r, member, rfl, isEnded, rfl⟩

/-- One entry changed that names no more lots than it did. -/
theorem updateEntry_sub (s : State) (i : Nat) (f : LotEntry → LotEntry)
    (names : (f (s.entry i)).names.Sublist (s.entry i).names)
    (fits : s.EntryFits (s.entry i) → s.EntryFits (f (s.entry i))) : LotsKept s (s.updateEntry i f) where
  store := rfl
  configuration := rfl
  lots := rfl
  inv h := by
    have own : (s.entry i).names.Nodup := by
      by_cases inTable : i < s.table.length
      · exact (List.nodup_flatMap.1 h.names).1 _ (entry_mem s i inTable)
      · rw [entry_of_ge s i inTable]; exact List.nodup_nil
    exact (updateEntry s i f (fun _ => ⟨names.nodup own, fun n hn => .inl (names.subset hn)⟩) fun _ => fits).inv h
  ended _ r member isEnded := ⟨r, member, rfl, isEnded, rfl⟩

/-- Frames, timers, queue, marks and ages are not described. -/
theorem updateEntry_rest (s : State) (i : Nat) (f : LotEntry → LotEntry)
    (same : ∀ e, (f e).lot = e.lot ∧ (f e).figures = e.figures ∧ (f e).waiting = e.waiting ∧ (f e).incoming = e.incoming) :
    LotsKept s (s.updateEntry i f) := by
  obtain ⟨lot, figures, waiting, incoming⟩ := same (s.entry i)
  refine updateEntry_sub s i f ?_ fun h => ?_
  · rw [LotEntry.names, lot, incoming]; exact List.Sublist.refl _
  · rw [State.EntryFits, LotEntry.names, lot, figures, waiting, incoming]; exact h

theorem useEntry (s : State) (i : Nat) : LotsKept s (s.useEntry i) :=
  LotsKept.trans (t := s.updateEntry i fun e => { e with lastUse := s.ordinal })
    (updateEntry_rest s i _ fun _ => ⟨rfl, rfl, rfl, rfl⟩) (nextOrdinal _)

theorem queue (s : State) (ref : RecordRef) (k : FrameKind) (n : Nat) : LotsKept s (s.queue ref k n) := by
  cases ref with
  | home lot =>
    exact LotsKept.trans (t := s.updateHome lot fun r => r.queued ⟨k, n, s.ordinal⟩)
      (updateHome_rest s lot _ fun _ => ⟨rfl, rfl, rfl, rfl, rfl⟩) (nextOrdinal _)
  | entry i =>
    exact LotsKept.trans (t := s.updateEntry i fun e => e.queued ⟨k, n, s.ordinal⟩)
      (updateEntry_rest s i _ fun _ => ⟨rfl, rfl, rfl, rfl⟩) (nextOrdinal _)

/-! ### Waiting lists -/

/-- A waiting list that fits the record. -/
def WaitsAt (s : State) (ref : RecordRef) (qs : List Request) : Prop :=
  match ref with
  | .home lot => Waits lot qs
  | .entry i => ∀ lot, (s.entry i).lot = some lot → Waits lot qs

theorem setWaiting (s : State) (ref : RecordRef) (qs : List Request) (waits : LotsInv s → WaitsAt s ref qs) :
    LotsKept s (s.setWaiting ref qs) := by
  cases ref with
  | home lot =>
    exact updateHome s lot _ (fun _ => rfl) (fun h _ e k => ⟨by rw [e]; exact waits h, k.2⟩)
      fun _ _ _ _ isEnded => ⟨isEnded, rfl⟩
  | entry i =>
    have names (e : LotEntry) : LotEntry.names { e with waiting := qs } = e.names := rfl
    exact ⟨rfl, rfl, rfl, fun h => (updateEntry_sub s i (fun e => { e with waiting := qs })
      (names _ ▸ List.Sublist.refl _) fun k => ⟨k.1, waits h, k.2.2⟩).inv h, fun _ r member isEnded => ⟨r, member, rfl, isEnded, rfl⟩⟩

theorem setWaiting_nil (s : State) (ref : RecordRef) : LotsKept s (s.setWaiting ref []) := by
  refine setWaiting s ref [] fun _ => ?_
  cases ref with
  | home lot => exact Waits.nil lot
  | entry i => exact fun lot _ => Waits.nil lot

/-- A part of a record's own list. -/
theorem setWaiting_filter (s : State) (ref : RecordRef) (p : Request → Bool) :
    LotsKept s (s.setWaiting ref ((s.waitingAt ref).filter p)) := by
  refine setWaiting s ref _ fun h => ?_
  cases ref with
  | entry i => exact fun lot e => ((h.entry i).2.1 lot e).filter p
  | home lot =>
    refine Waits.filter ?_ p
    unfold State.waitingAt
    simp only
    split
    case h_1 r found => exact (findHome_some found).2 ▸ (h.home r (findHome_some found).1).1
    case h_2 => exact Waits.nil lot

theorem join_home (s : State) (lot : Nat) (q : Request) : LotsKept s (s.join (.home lot) lot q) :=
  updateHome s lot _ (fun _ => rfl) (fun _ r e h => ⟨by obtain rfl := e; exact h.1.join q, h.2⟩)
    fun _ _ _ _ isEnded => ⟨isEnded, rfl⟩

theorem join_entry (s : State) (i : Nat) (q : Request) {lot : Nat} (named : (s.entry i).lot = some lot) :
    LotsKept s (s.join (.entry i) lot q) := by
  refine updateEntry_sub s i _ (List.Sublist.refl _) fun h => ⟨h.1, fun lot' e => ?_, h.2.2⟩
  obtain rfl : lot = lot' := Option.some.inj (named.symm.trans e)
  exact (h.2.1 lot named).join q

/-! ### Completion and the debit -/

theorem refuseSeeking (s : State) (is : List Nat) (d : Option DispatchFields) (why : Reason) :
    LotsKept s (s.refuseSeeking is d why) := of_slotStep (slotStep_refuseSeeking s is d why)

theorem labelRequest (s : State) (q : Request) (d : DispatchFields) : LotsKept s (s.labelRequest q d) :=
  (of_slotStep (slotStep_labelMembers s d _ _ _)).trans (of_same rfl rfl rfl rfl)

theorem refuseNoNumber (s : State) (q : Request) : LotsKept s (s.refuseNoNumber q) :=
  (raise s .noNumber).trans (refuseSeeking _ _ _ _)

theorem settleNoDispatch (s : State) (q : Request) : LotsKept s (s.settleNoDispatch q) := by
  unfold State.settleNoDispatch
  refine (raise s .noDispatch).trans ?_
  simp only
  split
  · split
    · exact labelRequest _ _ _
    · exact refuseNoNumber _ _
  · exact refuseSeeking _ _ _ _

/-- The record that a debit takes from: its owner, of a lot of the plan, before its cut-off (R110). -/
theorem takeFigures (s : State) (ref : RecordRef) (q : Figures) {lot : Nat} {figures : Figures} {mark : Bool}
    (owned : s.owned ref = some (lot, figures, mark)) (early : s.pastCutOff lot = false) :
    LotsKept s (s.takeFigures ref q) := by
  cases ref with
  | home l =>
    unfold State.owned at owned
    simp only at owned
    split at owned
    case h_1 r found =>
      split at owned
      case isTrue holds =>
        have state : r.state = .atHome := by simpa [HomeRecord.holds] using holds
        exact updateHome_live s l _ (fun _ => rfl)
          (fun r _ h => ⟨h.1, fun owner => withinPlan_lessen (h.2.1 owner) q, h.2.2⟩) (live_of_found found (by simp [state]))
      case isFalse => cases owned
    case h_2 => cases owned
  | entry i =>
    unfold State.owned at owned
    simp only at owned
    split at owned
    case h_2 => cases owned
    case h_1 l named =>
      split at owned
      case isFalse => cases owned
      case isTrue =>
        obtain ⟨rfl, -⟩ := Prod.mk.inj (Option.some.inj owned)
        cases plan : s.planLot l with
        | none => simp [State.pastCutOff, plan] at early
        | some d =>
          refine LotsKept.trans (t := s.updateEntry i _) (updateEntry_sub s i _ (List.Sublist.refl _) fun h => ?_)
            (of_same rfl rfl rfl rfl)
          refine ⟨h.1, h.2.1, h.2.2.1, fun lot f e k => ?_⟩
          obtain rfl : l = lot := Option.some.inj (named.symm.trans e)
          obtain rfl := Option.some.inj k
          refine withinPlan_lessen ?_ q
          cases held : (s.entry i).figures with
          | none => exact withinPlan_zero plan
          | some f => exact h.2.2.2 l f named held

theorem debit {ref : RecordRef} {q : Request} (h : s.debit ref q = some t) : LotsKept s t := by
  unfold State.debit at h
  split at h
  case h_1 => cases h
  case h_2 lot figures mark owned =>
    split at h
    case isTrue => cases h
    case isFalse fits =>
      simp only [Bool.or_eq_true, not_or, Bool.not_eq_true] at fits
      split at h
      · cases h
        exact (takeFigures s ref _ owned fits.1).trans (labelRequest _ _ _)
      · cases h
        exact refuseNoNumber s q

/-! ### Entries made and tries -/

/-- An entry made for a lot that no entry names, or for one of its own. -/
theorem makeEntry (s : State) (i lot : Nat) (st : EntryState) (ws : List Request)
    (foreign : LotsInv s → s.homeOf lot ≠ s.own) (waits : LotsInv s → Waits lot ws)
    (free : LotsInv s → lot ∈ (s.entry i).names ∨ lot ∉ s.table.flatMap LotEntry.names) :
    LotsKept s (s.makeEntry i lot st ws) := by
  refine LotsKept.trans (t := s.updateEntry i _) (updateEntry s i _ (fun h => ?_) fun h _ => ?_) (of_same rfl rfl rfl rfl)
  · refine ⟨List.nodup_singleton lot, fun n hn => ?_⟩
    obtain rfl : n = lot := by simpa [LotEntry.names, LotEntry.cleared] using hn
    exact free h
  · refine ⟨fun n hn => ?_, fun n e => ?_, nofun, nofun⟩
    · obtain rfl : n = lot := by simpa [LotEntry.names, LotEntry.cleared] using hn
      exact foreign h
    · obtain rfl : lot = n := by simpa using e
      exact waits h

/-- Names and waiting lists of the entries do not read what a queuing changes. -/
theorem queue_entry_lots (s : State) (ref : RecordRef) (k : FrameKind) (n i : Nat) :
    ((s.queue ref k n).entry i).lot = (s.entry i).lot ∧ ((s.queue ref k n).entry i).incoming = (s.entry i).incoming ∧
    (s.queue ref k n).table.flatMap LotEntry.names = s.table.flatMap LotEntry.names := by
  cases ref with
  | home lot => exact ⟨rfl, rfl, rfl⟩
  | entry j =>
    refine ⟨entry_updateEntry_field s j i LotEntry.lot fun _ => rfl,
      entry_updateEntry_field s j i LotEntry.incoming fun _ => rfl, ?_⟩
    show (s.table.modify j _).flatMap LotEntry.names = _
    rw [List.flatMap_def, List.flatMap_def]
    congr 1
    refine List.ext_getElem? fun m => ?_
    simp only [List.getElem?_map, List.getElem?_modify]
    split
    · cases s.table[m]? <;> rfl
    · simp

theorem castOut (s : State) (i lot : Nat) (q : Request) (foreign : s.homeOf lot ≠ s.own)
    (fresh : lot ∉ s.table.flatMap LotEntry.names) : LotsKept s (s.castOut i lot q) := by
  have queued := queue s (.entry i) .handover (match (s.entry i).lot with | some l => s.homeOf l | none => 0)
  obtain ⟨named, incoming, names⟩ :=
    queue_entry_lots s (.entry i) .handover (match (s.entry i).lot with | some l => s.homeOf l | none => 0) i
  refine queued.trans (updateEntry _ i _ (fun h => ?_) fun h k => ?_)
  · rw [names]
    have all : ∀ n, (s.entry i).lot = some n → n ∈ s.table.flatMap LotEntry.names := fun n e => by
      by_cases inTable : i < s.table.length
      · exact List.mem_flatMap.2 ⟨_, entry_mem s i inTable, mem_names.2 (.inl e)⟩
      · rw [entry_of_ge s i inTable] at e; cases e
    simp only [LotEntry.names, named, Option.map_some, Option.toList_some]
    refine ⟨?_, fun n hn => ?_⟩
    · cases e : (s.entry i).lot with
      | none => simp
      | some n =>
        have apart : n ≠ lot := fun k => fresh (k ▸ all n e)
        simpa using apart
    · obtain old | new := List.mem_append.1 hn
      · exact .inl (List.mem_append_left _ old)
      · exact .inr (List.mem_singleton.1 new ▸ fresh)
  · refine ⟨fun n hn => ?_, k.2.1, ?_, k.2.2.2⟩
    · obtain old | new := List.mem_append.1 hn
      · exact k.1 n (List.mem_append_left _ old)
      · obtain rfl : n = lot := by simpa using new
        rw [homeOf_congr queued.store, own_congr queued.configuration]
        exact foreign
    · rintro _ ⟨⟩
      exact Waits.single lot q

/-- A home record asks; the lot has not ended (R106). -/
theorem askHome (s : State) (lot : Nat) (live : Live s lot) : LotsKept s (s.askHome lot) :=
  LotsKept.trans (t := s.updateHome lot fun r => { r with state := .askingHome, attempts := 0 })
    (updateHome_live s lot _ (fun _ => rfl) (fun _ _ h => ⟨h.1, by simp, h.2.2⟩) live) (queue _ _ _ _)

theorem askEntry (s : State) (i : Nat) : LotsKept s (s.askEntry i) :=
  LotsKept.trans (t := s.updateEntry i fun e => { e with state := .asking, attempts := 0, fetchTimer := none })
    (updateEntry_rest s i _ fun _ => ⟨rfl, rfl, rfl, rfl⟩) (queue _ _ _ _)

theorem askEntry_lot (s : State) (i j : Nat) : ((s.askEntry i).entry j).lot = (s.entry j).lot :=
  (queue_entry_lots _ _ _ _ j).1.trans (entry_updateEntry_field s i j LotEntry.lot fun _ => rfl)

theorem tryDebit (s : State) (ref : RecordRef) (q : Request) : LotsKept s (LotStep.endOf (s.tryDebit ref q)) := by
  unfold State.tryDebit
  split
  case h_1 debited => exact debit debited
  case h_2 => exact refl s

theorem tryHome (s : State) (q : Request) (lot : Nat) : LotsKept s (LotStep.endOf (s.tryHome q lot)) := by
  unfold State.tryHome
  split
  case h_1 => exact refl s
  case h_2 r found =>
    split
    · split
      · exact tryDebit _ _ _
      · exact join_home s lot q
    case h_2 away =>
      split
      · exact (askHome s lot (live_of_found found (by simp [away]))).trans (join_home _ lot q)
      · exact refl s
    case h_3 unknown => exact (askHome s lot (live_of_found found (by simp [unknown]))).trans (join_home _ lot q)
    · exact join_home s lot q
    · exact refl s

theorem tryEntry (s : State) (q : Request) {lot i : Nat} (named : (s.entry i).lot = some lot) :
    LotsKept s (LotStep.endOf (s.tryEntry q lot i)) := by
  have asked := (askEntry s i).trans (join_entry (s.askEntry i) i q ((askEntry_lot s i i).trans named))
  have joined := join_entry s i q named
  unfold State.tryEntry
  simp only
  split
  · split
    · exact refl s
    · exact asked
  · split
    · exact refl s
    · exact asked
  · exact joined
  all_goals
    split
    · exact refl s
    · split
      · exact tryDebit _ _ _
      · exact joined

theorem tryNewEntry (s : State) (q : Request) (lot : Nat) (foreign : s.homeOf lot ≠ s.own)
    (fresh : lot ∉ s.table.flatMap LotEntry.names) : LotsKept s (LotStep.endOf (s.tryNewEntry q lot)) := by
  unfold State.tryNewEntry
  split
  case h_1 i _ =>
    exact (makeEntry s i lot .asking [q.waitsOn lot] (fun _ => foreign) (fun _ => Waits.single lot q)
      fun _ => .inr fresh).trans (queue _ (.entry i) .fetch 0)
  · split
    · exact castOut s _ lot q foreign fresh
    · exact refl s

theorem tryForeign (s : State) (q : Request) (lot : Nat) (foreign : s.homeOf lot ≠ s.own) :
    LotsKept s (LotStep.endOf (s.tryForeign q lot)) := by
  unfold State.tryForeign
  split
  case h_1 i found =>
    refine (useEntry s i).trans (tryEntry _ q ?_)
    exact (entry_updateEntry_field s i i (f := fun e => { e with lastUse := s.ordinal }) LotEntry.lot fun _ => rfl).trans
      (entryOf_some found).2
  case h_2 notNamed =>
    split
    case h_1 i found =>
      refine (useEntry s i).trans ?_
      have incoming : ((s.useEntry i).entry i).incoming = (s.entry i).incoming :=
        entry_updateEntry_field s i i LotEntry.incoming fun _ => rfl
      obtain ⟨-, c, held, same⟩ := incomingOf_some found
      refine updateEntry_sub _ i _ ?_ fun k => ⟨?_, k.2.1, ?_, k.2.2.2⟩
      · simp only [LotEntry.names, incoming, held, Option.map_some]
        exact List.Sublist.refl _
      · have own := k.1
        simp only [LotEntry.names, incoming, held, Option.map_some] at own ⊢
        exact own
      · simp only [incoming, held, Option.map_some]
        rintro _ ⟨⟩
        exact same ▸ (k.2.2.1 c (incoming.trans held)).join q
    case h_2 notIncoming => exact tryNewEntry s q lot foreign (notMem_names notNamed notIncoming)

theorem tryCandidate (s : State) (q : Request) (c : Candidate) : LotsKept s (LotStep.endOf (s.tryCandidate q c)) := by
  unfold State.tryCandidate
  split
  · exact refl s
  · split
    case isTrue => exact tryHome s q c.lot
    case isFalse foreign => exact tryForeign s q c.lot foreign

theorem tryAll (s : State) (q : Request) (cs : List Candidate) : LotsKept s (s.tryAll q cs) := by
  induction cs generalizing s q with
  | nil => exact settleNoDispatch s q
  | cons c cs ih =>
    have tried := tryCandidate s q c
    unfold State.tryAll
    split
    case h_1 settled => rw [settled] at tried; exact tried
    case h_2 moves => rw [moves] at tried; exact tried.trans (ih _ _)
    case h_3 none => rw [none] at tried; exact tried.trans (settleNoDispatch _ _)

theorem startRequest (s : State) (q : Request) : LotsKept s (s.startRequest q) := tryAll _ _ _

theorem moveOn (s : State) (q : Request) : LotsKept s (s.moveOn q) := tryAll _ _ _

theorem foldl {α : Type} (f : State → α → State) (each : ∀ s a, LotsKept s (f s a)) (s : State) (as : List α) :
    LotsKept s (as.foldl f s) := by
  induction as generalizing s with
  | nil => exact refl s
  | cons a as ih => exact (each s a).trans (ih _)

theorem moveOnAll (s : State) (qs : List Request) : LotsKept s (s.moveOnAll qs) := foldl _ moveOn s qs

/-! ### Arrival, cut-off, TALLY -/

theorem trial (s : State) (ref : RecordRef) (qs : List Request) : LotsKept s (s.trial ref qs).1 := by
  induction qs generalizing s with
  | nil => exact refl s
  | cons q qs ih =>
    unfold State.trial
    split
    case h_1 debited => exact (debit debited).trans (ih _)
    case h_2 => exact ih s

theorem debitWaiting (s : State) (ref : RecordRef) : LotsKept s (s.debitWaiting ref) :=
  ((setWaiting_nil s ref).trans (trial _ _ _)).trans (moveOnAll _ _)

theorem testTally (s : State) (ref : RecordRef) : LotsKept s (s.testTally ref) := by
  unfold State.testTally
  split
  · exact queue _ _ _ _
  · exact refl s

theorem testTallyOf (s : State) (lot : Nat) : LotsKept s (s.testTallyOf lot) := by
  unfold State.testTallyOf
  split
  · exact testTally _ _
  · exact refl s

/-- A list or an incoming lot's list emptied. -/
theorem emptyIncoming (s : State) (i : Nat) :
    LotsKept s (s.updateEntry i (fun e => { e with incoming := e.incoming.map (fun c => { c with waiting := [] }) })) := by
  have names (e : LotEntry) :
      LotEntry.names { e with incoming := e.incoming.map (fun c => { c with waiting := [] }) } = e.names := by
    simp only [LotEntry.names, Option.map_map]
    rfl
  refine updateEntry_sub s i _ (by rw [names]) fun k => ⟨by rw [names]; exact k.1, k.2.1, fun c e => ?_, k.2.2.2⟩
  obtain ⟨c', -, rfl⟩ := Option.map_eq_some_iff.1 e
  exact Waits.nil _

theorem releaseWaiting (s : State) (lot : Nat) : LotsKept s (s.releaseWaiting lot).1 := by
  have entry (s' : State) (i : Nat) : LotsKept s' (s'.updateEntry i fun e => { e with waiting := [] }) :=
    setWaiting_nil s' (.entry i)
  unfold State.releaseWaiting
  simp only
  have home : LotsKept s (s.updateHome lot fun r => { r with waiting := [] }) := setWaiting_nil s (.home lot)
  split
  case h_1 j _ =>
    split
    case h_1 i _ => exact (home.trans (entry _ i)).trans (emptyIncoming _ j)
    case h_2 => exact home.trans (emptyIncoming _ j)
  case h_2 =>
    split
    case h_1 i _ => exact home.trans (entry _ i)
    case h_2 => exact home

theorem reachCutOff (s : State) (lot : Nat) : LotsKept s (s.reachCutOff lot) :=
  ((releaseWaiting s lot).trans (moveOnAll _ _)).trans (testTallyOf _ _)

theorem homeDistinct_congr {s t : State} (h : LotsKept s t) : t.HomeDistinct ↔ s.HomeDistinct := by
  rw [State.HomeDistinct, State.HomeDistinct, h.lots]

/-- A change that keeps each record's state. -/
theorem live_updateHome_state {s : State} {lot : Nat} (live : Live s lot) (l : Nat) (f : HomeRecord → HomeRecord)
    (keeps : ∀ r, (f r).lot = r.lot ∧ (f r).state = r.state) : Live (s.updateHome l f) lot := by
  intro distinct r member same
  obtain ⟨r', member', rfl⟩ := List.mem_map.1 member
  have distinct' : s.HomeDistinct := by
    rw [State.HomeDistinct, ← (LotStep.updateHome s l f fun r => (keeps r).1).homeLots]
    exact distinct
  obtain ⟨lot', state'⟩ := keeps r'
  by_cases e : r'.lot = l
  · rw [if_pos e] at same ⊢
    rw [state']
    exact live distinct' r' member' (lot'.symm.trans same)
  · rw [if_neg e] at same ⊢
    exact live distinct' r' member' same

/-- A record left in a state that is not ENDED. -/
theorem live_updateHome (s : State) (lot : Nat) (f : HomeRecord → HomeRecord)
    (state : ∀ r, (f r).state ≠ .ended) : Live (s.updateHome lot f) lot := by
  intro _ r member same
  obtain ⟨r', member', rfl⟩ := List.mem_map.1 member
  by_cases e : r'.lot = lot
  · rw [if_pos e]; exact state r'
  · rw [if_neg e] at same
    exact absurd same e

/-! ### Ownership -/

/-- An entry changed to hold no more than it held, but for figures of its lot within the plan capacity. -/
theorem updateEntry_less (s : State) (i : Nat) (f : LotEntry → LotEntry)
    (lot : ∀ n, (f (s.entry i)).lot = some n → (s.entry i).lot = some n)
    (incoming : ∀ c, (f (s.entry i)).incoming = some c → (s.entry i).incoming = some c)
    (waiting : ∀ n, (f (s.entry i)).lot = some n →
      (f (s.entry i)).waiting = [] ∨ (f (s.entry i)).waiting = (s.entry i).waiting)
    (figures : ∀ n g, (f (s.entry i)).lot = some n → (f (s.entry i)).figures = some g →
      (s.entry i).figures = some g ∨ s.WithinPlan n g) : LotsKept s (s.updateEntry i f) := by
  have names : (f (s.entry i)).names.Sublist (s.entry i).names := by
    refine List.Sublist.append ?_ ?_
    · cases e : (f (s.entry i)).lot with
      | none => simp
      | some n => rw [lot n e]
    · cases e : (f (s.entry i)).incoming with
      | none => simp
      | some c => rw [incoming c e]
  refine updateEntry_sub s i f names fun k => ⟨fun n hn => k.1 n (names.subset hn), fun n e => ?_, fun c e =>
    k.2.2.1 c (incoming c e), fun n g e e' => ?_⟩
  · obtain empty | same := waiting n e
    · rw [empty]; exact Waits.nil n
    · rw [same]; exact k.2.1 n (lot n e)
  · exact (figures n g e e').elim (k.2.2.2 n g (lot n e)) id

/-- An entry of a lot takes figures of the lot, and keeps names and waiting lists. -/
theorem updateEntry_figures (s : State) (i : Nat) (f : LotEntry → LotEntry) {lot : Nat} {g : Figures}
    (named : (s.entry i).lot = some lot) (plan : s.WithinPlan lot g)
    (same : ∀ e, (f e).lot = e.lot ∧ (f e).waiting = e.waiting ∧ (f e).incoming = e.incoming ∧
      ((f e).figures = some g ∨ (f e).figures = e.figures)) : LotsKept s (s.updateEntry i f) := by
  obtain ⟨lot', waiting, incoming, figures⟩ := same (s.entry i)
  refine updateEntry_less s i f (fun n e => lot' ▸ e) (fun c e => incoming ▸ e) (fun _ _ => .inr waiting) fun n g' e e' => ?_
  obtain taken | kept := figures
  · obtain rfl := Option.some.inj (taken.symm.trans e')
    rw [lot', named] at e
    obtain rfl := Option.some.inj e
    exact .inr plan
  · exact .inl (kept ▸ e')

theorem updateEntry_dropIncoming (s : State) (i : Nat) :
    LotsKept s (s.updateEntry i fun e => { e with incoming := none }) :=
  updateEntry_less s i _ (fun _ => id) nofun (fun _ _ => .inr rfl) fun _ _ _ e => .inl e

theorem takeUpIncoming (s : State) (i : Nat) : LotsKept s (s.takeUpIncoming i) := by
  unfold State.takeUpIncoming
  split
  case h_1 => exact refl s
  case h_2 c held =>
    have own : c.lot ∈ (s.entry i).names := mem_names.2 (.inr ⟨c, held, rfl⟩)
    split
    · exact updateEntry_dropIncoming s i
    · exact LotsKept.trans (t := s.makeEntry i c.lot .asking c.waiting)
        (makeEntry s i c.lot _ _ (fun h => (h.entry i).1 c.lot own) (fun h => (h.entry i).2.2.1 c held) fun _ => .inl own)
        (queue _ _ _ _)

/-- The record that waits on may still change. -/
def LiveAt (s : State) : RecordRef → Prop
  | .home lot => Live s lot
  | .entry _ => True

theorem askAgain (s : State) (ref : RecordRef) (f : Figures) (live : LiveAt s ref) : LotsKept s (s.askAgain ref f) := by
  unfold State.askAgain
  simp only
  refine LotsKept.trans ?_ (moveOnAll _ _)
  have stay := setWaiting_filter s ref fun q => q.figures.fits f
  split
  · exact stay
  · cases ref with
    | home lot =>
      exact stay.trans (askHome _ lot (live_updateHome_state live lot _ fun _ => ⟨rfl, rfl⟩))
    | entry i => exact stay.trans (askEntry _ i)

theorem giveUpHome (s : State) (lot : Nat) (f : Figures) (plan : s.WithinPlan lot f) (live : Live s lot) :
    LotsKept s (s.giveUpHome lot f) := by
  have gives := updateHome_live s lot (fun r =>
    { r with state := .away, figures := .zero, lastSeen := some f, queue := [], handingOver := false }) (fun _ => rfl)
    (fun r e h => ⟨h.1, by simp, fun g k => by
      obtain rfl := Option.some.inj k
      exact e ▸ plan⟩) live
  exact gives.trans (askAgain _ (.home lot) f (live_updateHome s lot _ fun _ => nofun))

theorem giveUpEntry (s : State) (i : Nat) (f : Figures) {lot : Nat} (named : (s.entry i).lot = some lot)
    (plan : s.WithinPlan lot f) : LotsKept s (s.giveUpEntry i f) :=
  ((updateEntry_figures s i _ named plan (by exact fun _ => ⟨rfl, rfl, rfl, .inl rfl⟩)).trans
    (askAgain _ (.entry i) f trivial)).trans (takeUpIncoming _ i)

theorem live_of_owned {s : State} {lot : Nat} {x : Nat × Figures × Bool} (owned : s.owned (.home lot) = some x) :
    Live s lot := by
  unfold State.owned at owned
  simp only at owned
  split at owned
  case h_1 r found =>
    split at owned
    case isTrue holds =>
      have state : r.state = .atHome := by simpa [HomeRecord.holds] using holds
      exact live_of_found found (by simp [state])
    case isFalse => cases owned
  case h_2 => cases owned

theorem handoverSent (s : State) (lot : Nat) (f : Figures) (plan : s.WithinPlan lot f) :
    LotsKept s (s.handoverSent lot f) := by
  unfold State.handoverSent
  split
  case h_1 l record =>
    obtain ⟨rfl, -⟩ := recordOf_home record
    split
    case h_1 owned => exact giveUpHome s l f plan (live_of_owned owned)
    case h_2 => exact refl s
  case h_2 i record =>
    split
    case h_1 => exact giveUpEntry s i f (entryOf_some (recordOf_entry record).1).2 plan
    case h_2 => exact refl s
  case h_3 => exact refl s

theorem homeOnward (s : State) (lot : Nat) : LotsKept s (s.homeOnward lot) := by
  unfold State.homeOnward
  split
  · exact refl s
  · split
    · exact queue _ _ _ _
    · exact testTally _ _

theorem entryOnward (s : State) (i : Nat) : LotsKept s (s.entryOnward i) := by
  unfold State.entryOnward
  simp only
  split
  · exact queue _ _ _ _
  · split
    · split <;> exact queue _ _ _ _
    · exact testTally _ _

/-- The home owns its lot again, with figures of the plan (R127, R134). -/
theorem homeOwns (s : State) (lot : Nat) (f : HomeRecord → HomeRecord) {g : Figures} (plan : s.WithinPlan lot g)
    (live : Live s lot) (same : ∀ r, (f r).lot = r.lot ∧ (f r).waiting = r.waiting ∧ (f r).figures = g ∧
      (f r).lastSeen = none) : LotsKept s (s.updateHome lot f) :=
  updateHome_live s lot f (fun r => (same r).1) (fun r e h => by
    obtain ⟨lot', waiting, figures, lastSeen⟩ := same r
    rw [State.HomeFits, lot', waiting, figures, lastSeen, e]
    exact ⟨e ▸ h.1, fun _ => plan, nofun⟩) live

theorem homeReceives (s : State) (lot : Nat) (f : Figures) (m : Bool) (q : List Nat) (plan : s.WithinPlan lot f)
    (live : Live s lot) : LotsKept s (s.homeReceives lot f m q) :=
  ((homeOwns s lot _ plan live (by exact fun _ => ⟨rfl, rfl, rfl, rfl⟩)).trans (debitWaiting _ _)).trans (homeOnward _ _)

theorem reclaimHome (s : State) (lot : Nat) (f : Figures) (plan : s.WithinPlan lot f) (live : Live s lot) :
    LotsKept s (s.reclaimHome lot f) :=
  ((homeOwns s lot _ plan live (by exact fun _ => ⟨rfl, rfl, rfl, rfl⟩)).trans (debitWaiting _ _)).trans (testTally _ _)

theorem entryTakes (s : State) (i lot : Nat) (f : Figures) (m : Bool) (q : List Nat) (named : (s.entry i).lot = some lot)
    (plan : s.WithinPlan lot f) : LotsKept s (s.entryTakes i lot f m q) := by
  refine LotsKept.trans (t := s.updateEntry i _) (updateEntry_less s i _ ?_ (fun _ => id) (fun _ _ => .inr rfl) ?_)
    (nextOrdinal _)
  · rintro _ ⟨⟩
    exact named
  · rintro _ _ ⟨⟩ ⟨⟩
    exact .inr plan

theorem entryReceives (s : State) (i lot : Nat) (f : Figures) (m : Bool) (q : List Nat)
    (named : (s.entry i).lot = some lot) (plan : s.WithinPlan lot f) : LotsKept s (s.entryReceives i lot f m q) :=
  ((entryTakes s i lot f m q named plan).trans (debitWaiting _ _)).trans (entryOnward _ _)

theorem takeIncoming (s : State) (lot : Nat) : LotsKept s (s.takeIncoming lot).1 := by
  unfold State.takeIncoming
  split
  · exact updateEntry_dropIncoming _ _
  · exact refl s

/-- The lot taken off its castout entry is named by none. -/
theorem takeIncoming_fresh {s : State} (h : LotsInv s) {lot : Nat} (notNamed : s.entryOf lot = none) :
    lot ∉ (s.takeIncoming lot).1.table.flatMap LotEntry.names ∧ Waits lot (s.takeIncoming lot).2 := by
  unfold State.takeIncoming
  split
  case h_2 none => exact ⟨notMem_names notNamed none, Waits.nil lot⟩
  case h_1 j found =>
    obtain ⟨inTable, c, held, same⟩ := incomingOf_some found
    refine ⟨fun member => ?_, ?_⟩
    · obtain ⟨e, he, hn⟩ := List.mem_flatMap.1 member
      obtain ⟨k, inTable', rfl⟩ := List.mem_iff_getElem.1 he
      have entry := entry_updateEntry s j k fun e => { e with incoming := none }
      rw [entry_eq_getElem _ k inTable'] at entry
      rw [entry] at hn
      have unnamed (k : Nat) : (s.entry k).lot ≠ some lot := by
        by_cases inTable : k < s.table.length
        · exact entryOf_none.1 notNamed _ (entry_mem s k inTable)
        · rw [entry_of_ge s k inTable]; nofun
      split at hn
      case isTrue =>
        obtain e | ⟨c', e, -⟩ := mem_names.1 hn
        · exact unnamed j e
        · cases e
      case isFalse other =>
        exact other ⟨names_unique h.names hn (mem_names.2 (.inr ⟨c, held, same⟩)), inTable⟩
    · simp only [held]
      exact same ▸ (h.entry j).2.2.1 c held

/-- An entry made for a lot with the requests that waited for it as an incoming lot (R128). -/
theorem makeIncoming (s : State) (i lot : Nat) (foreign : s.homeOf lot ≠ s.own) (notNamed : s.entryOf lot = none) :
    LotsKept s ((s.takeIncoming lot).1.makeEntry i lot .asking (s.takeIncoming lot).2) := by
  have taken := takeIncoming s lot
  refine ⟨taken.store, taken.configuration, taken.lots, fun h => ?_, taken.ended⟩
  obtain ⟨fresh, waits⟩ := takeIncoming_fresh h notNamed
  refine (makeEntry _ i lot _ _ (fun _ => ?_) (fun _ => waits) fun _ => .inr fresh).inv (taken.inv h)
  rw [homeOf_congr taken.store, own_congr taken.configuration]
  exact foreign

theorem makeEntry_lot (s : State) (i lot : Nat) (st : EntryState) (ws : List Request) (inTable : i < s.table.length) :
    ((s.makeEntry i lot st ws).entry i).lot = some lot := by
  have entry := entry_updateEntry s i i fun e =>
    { LotEntry.cleared with
      lot := some lot, state := st, lastUse := s.ordinal, lastDebit := e.lastDebit, waiting := ws }
  rw [if_pos ⟨rfl, inTable⟩] at entry
  exact congrArg LotEntry.lot entry

theorem leastEntry_bound {qualifies : LotEntry → Bool} {key : LotEntry → Nat} {es : List LotEntry} {n i k : Nat}
    (h : leastEntry qualifies key n es = some (i, k)) : n ≤ i ∧ i < n + es.length := by
  induction es generalizing n i k with
  | nil => cases h
  | cons e es ih =>
    unfold leastEntry at h
    split at h
    case h_1 j m least =>
      obtain ⟨low, high⟩ := ih least
      split at h
      · obtain ⟨rfl, -⟩ := Prod.mk.inj (Option.some.inj h)
        exact ⟨Nat.le_refl _, by simp⟩
      · obtain ⟨rfl, -⟩ := Prod.mk.inj (Option.some.inj h)
        exact ⟨by omega, by simp only [List.length_cons]; omega⟩
    case h_2 =>
      split at h
      · obtain ⟨rfl, -⟩ := Prod.mk.inj (Option.some.inj h)
        exact ⟨Nat.le_refl _, by simp⟩
      · cases h

theorem lt_of_leastEntry {s : State} {qualifies : LotEntry → Bool} {key : LotEntry → Nat} {i : Nat}
    (h : (leastEntry qualifies key 0 s.table).map (·.1) = some i) : i < s.table.length := by
  obtain ⟨⟨j, k⟩, least, rfl⟩ := Option.map_eq_some_iff.1 h
  simpa using (leastEntry_bound least).2

theorem returnLot (s : State) (i lot : Nat) : LotsKept s (s.returnLot i lot) := by
  unfold State.returnLot
  split
  · exact entryOnward _ _
  · exact (queue s (.entry i) .handover (s.homeOf lot)).trans (updateEntry_rest _ i _ fun _ => ⟨rfl, rfl, rfl, rfl⟩)

theorem receiveUnnamed (s : State) (lot : Nat) (f : Figures) (m : Bool) (q : List Nat) (foreign : s.homeOf lot ≠ s.own)
    (notNamed : s.entryOf lot = none) (plan : s.WithinPlan lot f) : LotsKept s (s.receiveUnnamed lot f m q) := by
  have made (i : Nat) := makeIncoming s i lot foreign notNamed
  have length : (s.takeIncoming lot).1.table.length = s.table.length := (LotStep.takeIncoming s lot).tableLength
  have plan' (i : Nat) := (withinPlan_congr (made i).store lot f).2 plan
  unfold State.receiveUnnamed
  split
  case h_1 i chosen =>
    exact (made i).trans (entryReceives _ i lot f m q
      (makeEntry_lot _ i lot _ _ (length ▸ lt_of_leastEntry chosen)) (plan' i))
  case h_2 =>
    split
    case h_1 i chosen =>
      exact ((made i).trans (entryTakes _ i lot f m q
        (makeEntry_lot _ i lot _ _ (length ▸ lt_of_leastEntry chosen)) (plan' i))).trans (returnLot _ i lot)
    case h_2 => exact refl s

theorem handoverReceived (s : State) (lot : Nat) (f : Figures) (m : Bool) (q : List Nat) (plan : s.WithinPlan lot f) :
    LotsKept s (s.handoverReceived lot f m q) := by
  unfold State.handoverReceived
  split
  case isTrue =>
    split
    case h_1 => exact refl s
    case h_2 r found =>
      split
      case h_1 state => exact homeReceives s lot f m q plan (live_of_found found (by simp [state]))
      case h_2 state => exact homeReceives s lot f m q plan (live_of_found found (by simp [state]))
      case h_3 state => exact homeReceives s lot f m q plan (live_of_found found (by simp [state]))
      all_goals exact refl s
  case isFalse foreign =>
    split
    case h_1 i found =>
      split
      · exact refl s
      · exact entryReceives s i lot f m q (entryOf_some found).2 plan
    case h_2 notNamed => exact receiveUnnamed s lot f m q foreign notNamed plan

theorem hearFigures (s : State) (lot : Nat) (f : Figures) (m : Option Bool) (plan : s.WithinPlan lot f) :
    LotsKept s (s.hearFigures lot f m) := by
  unfold State.hearFigures
  split
  case h_1 l record =>
    obtain ⟨rfl, -⟩ := recordOf_home record
    refine updateHome s l _ (fun r => LotStep.hears_lot r _ _) (fun _ r e h => ?_) fun _ r _ _ isEnded => ?_
    · have seen : ∀ g, some f = some g → s.WithinPlan r.lot g := fun g k => Option.some.inj k ▸ e ▸ plan
      unfold HomeRecord.hears
      split
      · exact ⟨h.1, by simp, seen⟩
      · exact ⟨h.1, by simp, seen⟩
      · exact ⟨h.1, h.2.1, seen⟩
      all_goals exact h
    · simp only [HomeRecord.hears, isEnded, and_self]
  case h_2 i record =>
    refine updateEntry_figures s i _ (entryOf_some (recordOf_entry record).1).2 plan fun e => ?_
    unfold LotEntry.hears
    split
    · exact ⟨rfl, rfl, rfl, .inl rfl⟩
    · exact ⟨rfl, rfl, rfl, .inl rfl⟩
    all_goals exact ⟨rfl, rfl, rfl, .inr rfl⟩
  case h_3 => exact refl s

theorem onHandover (s : State) (sender : Nat) (b : HandoverBody) (mine : Bool) :
    LotsKept s (s.onHandover sender b mine) := by
  unfold State.onHandover
  split
  case h_1 => exact refl s
  case h_2 d named =>
    have plan := withinPlan_upTo named b.figures
    simp only
    split
    · exact handoverSent s _ _ plan
    · split
      · exact handoverReceived s _ _ _ _ plan
      · exact hearFigures s _ _ _ plan

theorem loseToReclaim (s : State) (i : Nat) (f : Figures) {lot : Nat} (named : (s.entry i).lot = some lot)
    (plan : s.WithinPlan lot f) : LotsKept s (s.loseToReclaim i f) :=
  (((updateEntry_figures s i _ named plan (by exact fun _ => ⟨rfl, rfl, rfl, .inl rfl⟩)).trans (raise _ _)).trans
    (askAgain _ (.entry i) f trivial)).trans (takeUpIncoming _ i)

theorem hearReclaim (s : State) (i : Nat) (f : Figures) {lot : Nat} (named : (s.entry i).lot = some lot)
    (plan : s.WithinPlan lot f) : LotsKept s (s.hearReclaim i f) := by
  unfold State.hearReclaim
  split
  · exact (updateEntry_figures s i (fun e =>
      { e with figures := some f, reclaimed := true, attempts := 0, fetchTimer := none }) named plan
      fun _ => ⟨rfl, rfl, rfl, .inl rfl⟩).trans (queue _ _ _ _)
  · exact updateEntry_figures s i _ named plan fun _ => ⟨rfl, rfl, rfl, .inl rfl⟩
  · exact updateEntry_figures s i _ named plan fun _ => ⟨rfl, rfl, rfl, .inl rfl⟩
  all_goals exact refl s

theorem onReclaim (s : State) (lot : Nat) (f : Figures) (mine : Bool) : LotsKept s (s.onReclaim lot f mine) := by
  unfold State.onReclaim
  split
  case h_1 => exact refl s
  case h_2 d named =>
    have plan := withinPlan_upTo named f
    simp only
    split
    case h_1 l record =>
      obtain ⟨rfl, -⟩ := recordOf_home record
      have mineOr (live : Live s l) :
          LotsKept s (if mine = true then s.reclaimHome l (f.upTo d.capacity) else s) := by
        split
        · exact reclaimHome s l _ plan live
        · exact refl s
      split
      case h_1 => exact refl s
      case h_2 r found =>
        split
        case h_1 state => exact mineOr (live_of_found found (by simp [state]))
        case h_2 state => exact mineOr (live_of_found found (by simp [state]))
        case h_3 state => exact mineOr (live_of_found found (by simp [state]))
        all_goals exact refl s
    case h_2 i record =>
      have entry := (entryOf_some (recordOf_entry record).1).2
      split
      · exact loseToReclaim s i _ entry plan
      · exact hearReclaim s i _ entry plan
    case h_3 => exact refl s

theorem dropIncoming (s : State) (lot : Nat) : LotsKept s (s.dropIncoming lot) := by
  unfold State.dropIncoming
  split
  · exact updateEntry_dropIncoming _ _
  · exact refl s

theorem tallied (s : State) (lot : Nat) (f : Figures) (plan : s.WithinPlan lot f) :
    LotsKept s (s.updateHome lot fun r => r.tallied f) := by
  refine updateHome s lot _ (fun r => LotStep.tallied_lot r f) (fun _ r e h => ?_) fun _ r _ _ isEnded => ?_
  · unfold HomeRecord.tallied
    split
    · exact h
    · exact ⟨h.1, fun _ => e ▸ plan, nofun⟩
  · rw [HomeRecord.tallied, if_pos isEnded]
    exact ⟨isEnded, rfl⟩

theorem onTally (s : State) (lot : Nat) (f : Figures) : LotsKept s (s.onTally lot f) := by
  unfold State.onTally
  split
  case h_1 => exact refl s
  case h_2 d named =>
    simp only
    have released := releaseWaiting s lot
    have plan := (withinPlan_congr released.store lot _).2 (withinPlan_upTo named f)
    refine LotsKept.trans ?_ (moveOnAll _ _)
    have ended := (released.trans (tallied _ lot _ plan)).trans (dropIncoming _ lot)
    split
    · exact (ended.trans (updateEntry_less _ _ LotEntry.freed nofun (fun _ => id) nofun nofun)).trans (takeUpIncoming _ _)
    · exact ended

/-! ### FETCH, STALL, NOTICE, timers, LEAVE -/

theorem fetchSent (s : State) (lot : Nat) : LotsKept s (s.fetchSent lot) := by
  unfold State.fetchSent
  split
  · exact updateHome_rest _ _ _ fun r => by split <;> exact ⟨rfl, rfl, rfl, rfl, rfl⟩
  · exact updateEntry_rest _ _ _ fun e => by split <;> exact ⟨rfl, rfl, rfl, rfl⟩
  · exact refl s

theorem ownerFetched (s : State) (ref : RecordRef) (n : Nat) : LotsKept s (s.ownerFetched ref n) := by
  cases ref with
  | home lot =>
    unfold State.ownerFetched
    simp only
    split
    · exact refl s
    · split
      · exact LotsKept.trans (t := s.updateHome lot fun r => { r with queue := r.queue ++ [n] })
          (updateHome_rest _ _ _ fun _ => ⟨rfl, rfl, rfl, rfl, rfl⟩) (queue _ _ _ _)
      · exact refl s
  | entry i =>
    unfold State.ownerFetched
    simp only
    split
    · exact LotsKept.trans (t := s.updateEntry i fun e => { e with queue := e.queue ++ [n] })
        (updateEntry_rest _ _ _ fun _ => ⟨rfl, rfl, rfl, rfl⟩) (queue _ _ _ _)
    · exact refl s

theorem onFetch (s : State) (sender lot : Nat) (mine : Bool) : LotsKept s (s.onFetch sender lot mine) := by
  unfold State.onFetch
  split
  · simp only
    split
    · exact (ownerFetched _ _ _).trans (fetchSent _ _)
    · exact ownerFetched _ _ _
  · exact refl s

theorem onStall (s : State) (lot : Nat) : LotsKept s (s.onStall lot) := by
  unfold State.onStall
  split
  case h_1 r _ found =>
    split
    case h_1 state => exact askHome s lot (live_of_found found (by simp [state]))
    case h_2 state => exact askHome s lot (live_of_found found (by simp [state]))
    all_goals exact refl s
  case h_2 => exact refl s

theorem noticeSent (s : State) (lot : Nat) (f : Figures) : LotsKept s (s.noticeSent lot f) := by
  unfold State.noticeSent
  split
  · split
    · exact LotsKept.trans (updateEntry_rest _ _ _ fun e => by split <;> exact ⟨rfl, rfl, rfl, rfl⟩) (testTally _ _)
    · exact refl s
  · exact refl s

theorem onNotice (s : State) (lot : Nat) (f : Figures) (mine was : Bool) : LotsKept s (s.onNotice lot f mine was) := by
  unfold State.onNotice
  split
  case h_1 => exact refl s
  case h_2 d named =>
    split
    · split
      · exact noticeSent _ _ _
      · exact refl s
    · exact hearFigures s lot _ none (withinPlan_upTo named f)

/-- An entry whose asking ends holds no more than it held (R131, R144). -/
theorem updateEntry_askingEnds (s : State) (i : Nat) (remember : Bool) (f : LotEntry → LotEntry)
    (same : ∀ e, (f e).lot = e.lot ∧ (f e).figures = e.figures ∧ ((f e).waiting = [] ∨ (f e).waiting = e.waiting) ∧
      (f e).incoming = e.incoming) : LotsKept s (s.updateEntry i fun e => f (e.askingEnds remember)) := by
  obtain ⟨lot, figures, waiting, incoming⟩ := same ((s.entry i).askingEnds remember)
  have ends : ((s.entry i).askingEnds remember).waiting = (s.entry i).waiting ∧
      (∀ n, ((s.entry i).askingEnds remember).lot = some n → (s.entry i).lot = some n) ∧
      (∀ c, ((s.entry i).askingEnds remember).incoming = some c → (s.entry i).incoming = some c) ∧
      ∀ g, ((s.entry i).askingEnds remember).figures = some g → (s.entry i).figures = some g := by
    unfold LotEntry.askingEnds
    split
    · exact ⟨rfl, fun _ => id, fun _ => id, fun _ => id⟩
    · split
      · exact ⟨rfl, fun _ => id, fun _ => id, fun _ => id⟩
      · exact ⟨rfl, nofun, nofun, nofun⟩
  obtain ⟨waiting', lot', incoming', figures'⟩ := ends
  exact updateEntry_less s i _ (fun n e => lot' n (lot ▸ e)) (fun c e => incoming' c (incoming ▸ e))
    (fun _ _ => waiting.imp_right (·.trans waiting')) fun _ g _ e => .inl (figures' g (figures ▸ e))

theorem askingFails (s : State) (i : Nat) : LotsKept s (s.askingFails i) :=
  ((queue s (.entry i) .stall 0).trans (updateEntry_askingEnds _ i true
    (fun e => { e with unreachable := some (s.timebase + 8 * s.config.fetchTimeout), waiting := [] })
    fun _ => ⟨rfl, rfl, .inl rfl, rfl⟩)).trans (moveOnAll _ _)

theorem entryExpiry (s : State) (i : Nat) : LotsKept s (s.entryExpiry i) := by
  have counted : LotsKept s (s.updateEntry i fun e => { e with attempts := e.attempts + 1, fetchTimer := none }) :=
    updateEntry_rest _ _ _ fun _ => ⟨rfl, rfl, rfl, rfl⟩
  unfold State.entryExpiry
  simp only
  split
  · split
    · exact counted.trans (updateEntry_askingEnds _ i false id fun _ => ⟨rfl, rfl, .inr rfl, rfl⟩)
    · split
      · exact counted.trans (queue _ _ _ _)
      · exact counted.trans (askingFails _ _)
  · exact refl s

theorem homeExpiry (s : State) (lot : Nat) : LotsKept s (s.homeExpiry lot) := by
  have counted : LotsKept s (s.updateHome lot fun r => { r with attempts := r.attempts + 1, fetchTimer := none }) :=
    updateHome_rest _ _ _ fun _ => ⟨rfl, rfl, rfl, rfl, rfl⟩
  unfold State.homeExpiry
  split
  case h_1 => exact refl s
  case h_2 r found =>
    split
    case isTrue asking =>
      simp only
      split
      · exact counted.trans (queue _ _ _ _)
      · split
        · refine (counted.trans (queue _ _ _ _)).trans (updateHome_live _ lot _ (fun _ => rfl) (fun r _ h => ⟨h.1, ?_, h.2.2⟩) ?_)
          · simp only [HomeRecord.askingEnds]
            split <;> simp
          · have live := live_of_found found (by simp [asking.1])
            exact live_updateHome_state (live_updateHome_state live lot _ (by exact fun _ => ⟨rfl, rfl⟩)) lot _
              (by exact fun _ => ⟨rfl, rfl⟩)
        · exact counted.trans (queue _ _ _ _)
    case isFalse => exact refl s

theorem publishExpiry (s : State) (i : Nat) : LotsKept s (s.publishExpiry i) := by
  have stopped : LotsKept s (s.updateEntry i fun e => { e with publishTimer := none }) :=
    updateEntry_rest _ _ _ fun _ => ⟨rfl, rfl, rfl, rfl⟩
  unfold State.publishExpiry
  dsimp only
  split
  · split
    · exact stopped.trans (queue _ _ _ _)
    · exact stopped
  · exact refl s

theorem leaveEntry (s : State) (i : Nat) : LotsKept s (s.leaveEntry i) := by
  unfold State.leaveEntry
  simp only
  split
  · exact queue _ _ _ _
  · split
    · exact updateEntry_askingEnds s i false (fun e => { e with frame := none }) fun _ => ⟨rfl, rfl, .inr rfl, rfl⟩
    · exact refl s

theorem leaveTable (s : State) : LotsKept s s.leaveTable := foldl _ leaveEntry s _

theorem requeueHome (s : State) (lot : Nat) : LotsKept s (s.requeueHome lot) := by
  unfold State.requeueHome
  split
  · exact refl s
  · split
    · split
      · exact queue _ _ _ _
      · exact testTally _ _
    · exact refl s

theorem testAllTallies (s : State) : LotsKept s s.testAllTallies := foldl _ (fun s _ => testTally s _) s _

end LotsKept
end Sys2Proof.Machine
end

section
/-! The tariff load (R28 to R41): the header checks, the walk along the chain, the required kinds in order, what a loaded
image holds, and the completion of the load. -/

namespace Sys2Proof.Machine

/-! ### The image header (R29) -/

theorem readBytes_header (f : Flash) : readBytes f 0 16 = [readFlash f 0, readFlash f 1, readFlash f 2, readFlash f 3,
    readFlash f 4, readFlash f 5, readFlash f 6, readFlash f 7, readFlash f 8, readFlash f 9, readFlash f 10, readFlash f 11,
    readFlash f 12, readFlash f 13, readFlash f 14, readFlash f 15] := rfl

/-- The bytes that the header check reads are all of one value (R29; log entry 29). -/
theorem all_headerBytes (f : Flash) (b : Byte) :
    (readHeaderBytes (readBytes f 0 16)).all (· == b) = true ↔ ∀ k, k < 13 → readFlash f k = b := by
  have bytes : readHeaderBytes (readBytes f 0 16) = (List.range 13).map (readFlash f) := rfl
  rw [bytes, List.all_map, List.all_eq_true]
  simp [List.mem_range]

theorem marker_iff (f : Flash) : (readBytes f 0 16).take 4 = marker ↔
    (readFlash f 0).toNat = 0x43 ∧ (readFlash f 1).toNat = 0x56 ∧ (readFlash f 2).toNat = 0x32 ∧
      (readFlash f 3).toNat = 0x54 := by
  have byte (x : Byte) (n : Nat) (small : n < 256) : x = BitVec.ofNat 8 n ↔ x.toNat = n := by
    rw [← BitVec.toNat_inj, BitVec.toNat_ofNat, Nat.mod_eq_of_lt small]
  rw [readBytes_header]
  simp only [List.take_succ_cons, List.take_zero, marker, List.cons.injEq, and_true]
  rw [← byte _ 0x43 (by omega), ← byte _ 0x56 (by omega), ← byte _ 0x32 (by omega), ← byte _ 0x54 (by omega)]
  exact Iff.rfl

theorem headerFields (f : Flash) :
    field (readBytes f 0 16) 6 1 = (readFlash f 6).toNat ∧
    field (readBytes f 0 16) 4 2 = (readFlash f 4).toNat * 256 + (readFlash f 5).toNat ∧
    field (readBytes f 0 16) 7 2 = (readFlash f 7).toNat * 256 + (readFlash f 8).toNat ∧
    field (readBytes f 0 16) 9 2 = (readFlash f 9).toNat * 256 + (readFlash f 10).toNat ∧
    field (readBytes f 0 16) 11 2 = (readFlash f 11).toNat * 256 + (readFlash f 12).toNat := by
  rw [readBytes_header]
  simp [field, ofBytes]

theorem modeOf_isSome (n : Nat) : (∃ m, modeOf n = some m) ↔ n ≤ 3 := by
  match n with
  | 0 | 1 | 2 | 3 => simp [modeOf]
  | n + 4 => simp [modeOf]

/-- The header checks in their order (R29). -/
theorem checkHeader_eq (c : Configuration) (f : Flash) (edition first last : Nat)
    (he : edition = (readFlash f 4).toNat * 256 + (readFlash f 5).toNat)
    (hf : first = (readFlash f 7).toNat * 256 + (readFlash f 8).toNat)
    (hl : last = (readFlash f 9).toNat * 256 + (readFlash f 10).toNat) :
    let silent : Prop := (∀ k, k < 13 → readFlash f k = 0xFF) ∨ (∀ k, k < 13 → readFlash f k = 0)
    let marked : Prop := (readBytes f 0 16).take 4 = marker
    (silent → checkHeader c (readBytes f 0 16) = .error .flashSilent) ∧
    (¬ silent → ¬ marked → checkHeader c (readBytes f 0 16) = .error .badMarker) ∧
    (¬ silent → marked → modeOf (readFlash f 6).toNat = none → checkHeader c (readBytes f 0 16) = .error .badHeader) ∧
    (¬ silent → marked → ∀ m, modeOf (readFlash f 6).toNat = some m → checkHeader c (readBytes f 0 16) =
      checkDays c ⟨edition, m, first, last, (readFlash f 11).toNat * 256 + (readFlash f 12).toNat⟩) := by
  obtain ⟨mode, edition', first', last', offset⟩ := headerFields f
  intro silent marked
  have silentTest : ((readHeaderBytes (readBytes f 0 16)).all (· == 0xFF) ||
      (readHeaderBytes (readBytes f 0 16)).all (· == 0x00)) = true ↔ silent := by
    rw [Bool.or_eq_true, all_headerBytes, all_headerBytes]
  unfold checkHeader
  rw [mode, edition', first', last', offset, ← he, ← hf, ← hl]
  refine ⟨fun h => if_pos (silentTest.2 h), fun h unmarked => ?_, fun h isMarked none => ?_, fun h isMarked m some' => ?_⟩
  all_goals rw [if_neg (mt silentTest.1 h)]
  · rw [if_pos (by simpa using unmarked)]
  · rw [if_neg (by simpa using isMarked), none]
  · rw [if_neg (by simpa using isMarked), some']

/-! ### The required kinds (R32) -/

/-- The three checks of one required kind against the kind's fault. -/
theorem checkedSection_cases {α : Type} (f : Flash) (chain : List ChainSection) (k : SectionKind) (read : Bytes → Option α)
    (reads : ∀ body, consistent k body = (read body).isSome) :
    (∃ e, sectionFault f chain k = some e ∧ checkedSection f chain k read = .error e) ∨
    ∃ a, sectionFault f chain k = none ∧ checkedSection f chain k read = .ok a ∧ ∃ body, read body = some a := by
  unfold sectionFault checkedSection
  cases firstOfKind k chain with
  | none => exact .inl ⟨_, rfl, rfl⟩
  | some c =>
    simp only [crcGood, reads]
    by_cases crc : crc16 (c.body f) = BitVec.ofNat 16 c.crc
    · cases decoded : read (c.body f) with
      | none => exact .inl ⟨.inconsistent k, by simp [crc], by simp [crc]⟩
      | some a => exact .inr ⟨a, by simp [crc], by simp [crc], _, decoded⟩
    · exact .inl ⟨.badCrc k, by simp [crc], by simp [crc]⟩

/-- The sections of a chain load, or fault with the first fault of the required kinds in their order; a load holds what
the readers gave (R32). -/
theorem loadSections_cases (f : Flash) (c : Configuration) (h : ImageHeader) (chain : List ChainSection) :
    (∃ e, requiredKinds.findSome? (sectionFault f chain) = some e ∧ loadSections f c h chain = .error e) ∨
    ∃ t, requiredKinds.findSome? (sectionFault f chain) = none ∧ loadSections f c h chain = .ok t ∧
      t.edition = h.edition ∧ t.mode = h.mode ∧ t.firstDay = h.firstDay ∧ t.lastDay = h.lastDay ∧
      (∃ body, zonesOf body = some t.zones) ∧ (∃ body, discountsOf body = some t.discounts) ∧
      ∃ body plan, planOfBody body = some plan ∧ t.plan = plan.map (substituteHome c.stationCount) := by
  have error {α β : Type} (e : LoadFault) (k : α → Except LoadFault β) :
      (Except.error e >>= k : Except LoadFault β) = .error e := rfl
  have ok {α β : Type} (a : α) (k : α → Except LoadFault β) : (Except.ok a >>= k : Except LoadFault β) = k a := rfl
  unfold loadSections requiredKinds
  obtain ⟨e, fault, zones⟩ | ⟨z, noZones, zones, zonesBody⟩ := checkedSection_cases f chain .zones zonesOf fun _ => rfl
  · exact .inl ⟨e, by simp [fault], by rw [zones, error]⟩
  obtain ⟨e, fault, economy⟩ | ⟨re, noEconomy, economy, -⟩ := checkedSection_cases f chain .ratesEconomy rateOf fun _ => rfl
  · exact .inl ⟨e, by simp [noZones, fault], by rw [zones, ok, economy, error]⟩
  obtain ⟨e, fault, standard⟩ | ⟨rs, noStandard, standard, -⟩ :=
    checkedSection_cases f chain .ratesStandard rateOf fun _ => rfl
  · exact .inl ⟨e, by simp [noZones, noEconomy, fault], by rw [zones, ok, economy, ok, standard, error]⟩
  obtain ⟨e, fault, priority⟩ | ⟨rp, noPriority, priority, -⟩ :=
    checkedSection_cases f chain .ratesPriority rateOf fun _ => rfl
  · exact .inl ⟨e, by simp [noZones, noEconomy, noStandard, fault],
      by rw [zones, ok, economy, ok, standard, ok, priority, error]⟩
  obtain ⟨e, fault, surcharges⟩ | ⟨u, noSurcharges, surcharges, -⟩ :=
    checkedSection_cases f chain .surcharges surchargesOf fun _ => rfl
  · exact .inl ⟨e, by simp [noZones, noEconomy, noStandard, noPriority, fault],
      by rw [zones, ok, economy, ok, standard, ok, priority, ok, surcharges, error]⟩
  obtain ⟨e, fault, discounts⟩ | ⟨d, noDiscounts, discounts, discountsBody⟩ :=
    checkedSection_cases f chain .discounts discountsOf fun _ => rfl
  · exact .inl ⟨e, by simp [noZones, noEconomy, noStandard, noPriority, noSurcharges, fault],
      by rw [zones, ok, economy, ok, standard, ok, priority, ok, surcharges, ok, discounts, error]⟩
  obtain ⟨e, fault, plan⟩ | ⟨p, noPlan, plan, planBody, planRead⟩ :=
    checkedSection_cases f chain .dispatchPlan planOfBody fun _ => rfl
  · exact .inl ⟨e, by simp [noZones, noEconomy, noStandard, noPriority, noSurcharges, noDiscounts, fault],
      by rw [zones, ok, economy, ok, standard, ok, priority, ok, surcharges, ok, discounts, ok, plan, error]⟩
  · refine .inr ⟨{
      mode := h.mode, edition := h.edition, firstDay := h.firstDay, lastDay := h.lastDay, zones := z
      economy := { re with surcharges := u.1 }, standard := { rs with surcharges := u.2.1 }
      priority := { rp with surcharges := u.2.2 }, discounts := d, plan := p.map (substituteHome c.stationCount)
      defaultScreen := defaultScreenOf f chain },
      by simp [noZones, noEconomy, noStandard, noPriority, noSurcharges, noDiscounts, noPlan], ?_,
      rfl, rfl, rfl, rfl, zonesBody, discountsBody, planBody, p, planRead, rfl⟩
    rw [zones, ok, economy, ok, standard, ok, priority, ok, surcharges, ok, discounts, ok, plan, ok]
    rfl

theorem loadImage_header_error {c : Configuration} {f : Flash} {e : LoadFault}
    (h : checkHeader c (readBytes f 0 16) = .error e) : loadImage c f = .error e := by
  rw [loadImage, h]
  rfl

theorem loadImage_header_ok {c : Configuration} {f : Flash} {h : ImageHeader}
    (passes : checkHeader c (readBytes f 0 16) = .ok h) : loadImage c f = loadSections f c h (walk f 16 h.first) := by
  rw [loadImage, passes]
  rfl

/-- Settles O24: the header checks one after the other, then the sections. -/
theorem requiredKindsInOrder : Obligations.RequiredKindsInOrder := by
  intro c f b edition first last silent marked good expected inForce
  have byte (k n : Nat) (small : n < 256) : b k = n ↔ readFlash f k = BitVec.ofNat 8 n := by
    rw [← BitVec.toNat_inj, BitVec.toNat_ofNat, Nat.mod_eq_of_lt small]
  have silentIff : silent ↔ (∀ k, k < 13 → readFlash f k = 0xFF) ∨ (∀ k, k < 13 → readFlash f k = 0) :=
    or_congr (forall₂_congr fun k _ => byte k 0xFF (by omega)) (forall₂_congr fun k _ => byte k 0 (by omega))
  obtain ⟨onSilent, onUnmarked, onNoMode, onMode⟩ := checkHeader_eq c f edition first last rfl rfl rfl
  rw [← silentIff] at onSilent
  rw [← silentIff, marker_iff] at onUnmarked onNoMode onMode
  have days (m : RoundingMode) (n : Nat) : checkDays c ⟨edition, m, first, last, n⟩ =
      if ¬ (1 ≤ edition ∧ (1 ≤ first ∧ first ≤ 366) ∧ (1 ≤ last ∧ last ≤ 366) ∧ first ≤ last) then .error .badHeader
      else if ¬ expected then .error .edition else if ¬ inForce then .error .dayRange else .ok ⟨edition, m, first, last, n⟩ := by
    unfold checkDays
    have ranges : (edition < 1 ∨ first < 1 ∨ 366 < first ∨ last < 1 ∨ 366 < last ∨ last < first) ↔
        ¬ (1 ≤ edition ∧ (1 ≤ first ∧ first ≤ 366) ∧ (1 ≤ last ∧ last ≤ 366) ∧ first ≤ last) := by omega
    refine ite_congr (propext ranges) (fun _ => rfl) fun _ => ite_congr (propext ?_) (fun _ => rfl) fun _ =>
      ite_congr (propext (by simp only [inForce]; omega)) (fun _ => rfl) fun _ => rfl
    simp only [expected, not_or, ne_eq]
  refine ⟨fun h => loadImage_header_error (onSilent h), fun h h' => loadImage_header_error (onUnmarked h h'),
    fun h h' bad => ?_, fun h h' isGood other => ?_, fun h h' isGood same out => ?_, fun h h' isGood same inside => ?_,
    fun header passes => ?_⟩
  · refine loadImage_header_error ?_
    cases mode : modeOf (readFlash f 6).toNat with
    | none => exact onNoMode h h' mode
    | some m =>
      have code := (modeOf_isSome _).1 ⟨m, mode⟩
      rw [onMode h h' m mode, days, if_pos fun ranges => bad ⟨ranges.1, code, ranges.2⟩]
  all_goals first
    | obtain ⟨editionGood, code, rest⟩ := isGood
      obtain ⟨m, mode⟩ := (modeOf_isSome _).2 code
      have checked := onMode h h' m mode
      rw [days, if_neg (not_not.2 ⟨editionGood, rest⟩)] at checked
    | skip
  · exact loadImage_header_error (checked.trans (if_pos other))
  · exact loadImage_header_error (checked.trans ((if_neg (not_not.2 same)).trans (if_pos out)))
  · exact ⟨_, checked.trans ((if_neg (not_not.2 same)).trans (if_neg (not_not.2 inside))), rfl, rfl, rfl, rfl, mode⟩
  · intro fault
    rw [loadImage_header_ok passes]
    obtain ⟨e, found, loads⟩ | ⟨t, none, loads, edition', mode', first', last', -⟩ :=
      loadSections_cases f c header (walk f 16 header.first)
    · exact ⟨fun e' some' => by rw [loads, ← Option.some.inj (found.symm.trans some')],
        fun isNone => absurd (found.symm.trans isNone) nofun⟩
    · exact ⟨fun e' some' => absurd (none.symm.trans some') nofun, fun _ => ⟨t, loads, edition', mode', first', last'⟩⟩

/-! ### The walk (R31) -/

theorem inBounds_iff (f : Flash) (o : Nat) :
    (readSection f o).inBounds = true ↔ 16 ≤ o ∧ o + 8 + (readSection f o).length ≤ 65536 := by
  rw [ChainSection.inBounds, Bool.and_eq_true, decide_eq_true_eq, decide_eq_true_eq]
  exact Iff.rfl

/-- The walk's three steps: out of bounds, at the end of the chain, and on. -/
theorem walk_cases (f : Flash) (n o : Nat) :
    (¬ (16 ≤ o ∧ o + 8 + (readSection f o).length ≤ 65536) ∧ walk f (n + 1) o = []) ∨
    ((16 ≤ o ∧ o + 8 + (readSection f o).length ≤ 65536) ∧
      (((readSection f o).next ≤ o ∧ walk f (n + 1) o = [readSection f o]) ∨
       (o < (readSection f o).next ∧ walk f (n + 1) o = readSection f o :: walk f n (readSection f o).next))) := by
  by_cases fits : 16 ≤ o ∧ o + 8 + (readSection f o).length ≤ 65536
  · have inBounds := (inBounds_iff f o).2 fits
    refine .inr ⟨fits, ?_⟩
    by_cases ends : (readSection f o).next ≤ o
    · exact .inl ⟨ends, by simp [walk, inBounds, ends]⟩
    · exact .inr ⟨by omega, by simp [walk, inBounds, ends]⟩
  · have out := mt (inBounds_iff f o).1 fits
    exact .inl ⟨fits, by simp [walk, out]⟩

/-- What a walk of at most `n` sections takes. -/
structure Walked (f : Flash) (n o : Nat) (chain : List ChainSection) : Prop where
  length : chain.length ≤ n
  sections : ∀ c ∈ chain, c = readSection f c.offset ∧ 16 ≤ c.offset ∧ c.offset + 8 + c.length ≤ 65536
  first : ∀ c, chain[0]? = some c → c = readSection f o
  goesOn : ∀ i a, chain[i]? = some a → i + 1 < n → a.offset < a.next →
    16 ≤ a.next ∧ a.next + 8 + (readSection f a.next).length ≤ 65536 → chain[i + 1]? = some (readSection f a.next)
  stops : ∀ i a, chain[i]? = some a → (n ≤ i + 1 ∨ a.next ≤ a.offset ∨
    ¬ (16 ≤ a.next ∧ a.next + 8 + (readSection f a.next).length ≤ 65536)) → chain.length = i + 1
  rises : ∀ i a b, chain[i]? = some a → chain[i + 1]? = some b → b.offset = a.next ∧ a.offset < b.offset

theorem walked_nil (f : Flash) (n o : Nat) : Walked f n o [] := ⟨Nat.zero_le n, nofun, nofun, nofun, nofun, nofun⟩

/-- Nothing is taken from an offset that is not in bounds. -/
theorem walk_out (f : Flash) (n : Nat) {o : Nat} (out : ¬ (16 ≤ o ∧ o + 8 + (readSection f o).length ≤ 65536)) :
    walk f n o = [] := by
  cases n with
  | zero => rfl
  | succ n =>
    obtain ⟨-, h⟩ | ⟨fits, -⟩ := walk_cases f n o
    · exact h
    · exact absurd fits out

theorem walk_walked (f : Flash) (n o : Nat) : Walked f n o (walk f n o) := by
  induction n generalizing o with
  | zero => exact walked_nil f 0 o
  | succ n ih =>
    obtain ⟨-, h⟩ | ⟨fits, ⟨ends, h⟩ | ⟨on, h⟩⟩ := walk_cases f n o
    · exact h ▸ walked_nil f (n + 1) o
    · rw [h]
      have only (i : Nat) (a : ChainSection) (hi : [readSection f o][i]? = some a) : i = 0 ∧ a = readSection f o := by
        obtain ⟨inList, rfl⟩ := List.getElem?_eq_some_iff.1 hi
        obtain rfl : i = 0 := by simpa using inList
        exact ⟨rfl, rfl⟩
      refine ⟨by simp, fun c hc => ?_, fun c hc => (only 0 c hc).2, fun i a hi _ later => ?_, fun i a hi _ => ?_,
        fun i a b _ hb => absurd (only _ b hb).1 (Nat.succ_ne_zero i)⟩
      · obtain rfl := List.mem_singleton.1 hc
        exact ⟨rfl, fits⟩
      · obtain ⟨-, rfl⟩ := only i a hi
        exact absurd later (Nat.not_lt.2 ends)
      · rw [(only i a hi).1]; rfl
    · rw [h]
      obtain ⟨length, sections, first, goesOn, stops, rises⟩ := ih (readSection f o).next
      refine ⟨Nat.succ_le_succ length, fun c hc => ?_, fun c hc => (Option.some.inj hc).symm, fun i a hi below later next => ?_,
        fun i a hi last => ?_, fun i a b hi hb => ?_⟩
      · obtain rfl | hc := List.mem_cons.1 hc
        · exact ⟨rfl, fits⟩
        · exact sections c hc
      · cases i with
        | zero =>
          obtain rfl := Option.some.inj hi
          obtain ⟨m, rfl⟩ : ∃ m, n = m + 1 := ⟨n - 1, by omega⟩
          obtain ⟨out, -⟩ | ⟨-, ⟨-, rest⟩ | ⟨-, rest⟩⟩ := walk_cases f m (readSection f o).next
          · exact absurd next out
          all_goals rw [rest]; rfl
        | succ i => exact goesOn i a hi (by omega) later next
      · cases i with
        | zero =>
          obtain rfl := Option.some.inj hi
          have empty : walk f n (readSection f o).next = [] := by
            obtain short | back | out := last
            · obtain rfl : n = 0 := by omega
              rfl
            · exact absurd on (Nat.not_lt.2 back)
            · exact walk_out f n out
          rw [empty]
          rfl
        | succ i => exact congrArg (· + 1) (stops i a hi (last.imp_left (by omega)))
      · cases i with
        | zero =>
          obtain rfl := Option.some.inj hi
          rw [first b hb]
          exact ⟨rfl, on⟩
        | succ i => exact rises i a b hi hb

/-- Settles O25. -/
theorem walkMovesForward : Obligations.WalkMovesForward := by
  intro f o chain fits
  obtain ⟨length, sections, first, goesOn, stops, rises⟩ := walk_walked f 16 o
  refine ⟨length, sections, fun inBounds => ?_, walk_out f 16, fun c hc => congrArg ChainSection.offset (first c hc), goesOn,
    fun i a hi last => stops i a hi (last.imp_left (by omega)), rises⟩
  obtain ⟨out, -⟩ | ⟨-, ⟨-, rest⟩ | ⟨-, rest⟩⟩ := walk_cases f 15 o
  · exact absurd inBounds out
  all_goals exact (congrArg (·[0]?) rest).trans rfl

/-! ### What a loaded image holds (R34, R37 to R40) -/

theorem length_readZones : ∀ {bs : Bytes} {es : List ZoneEntry}, readZones bs = some es → bs.length = 2 * es.length
  | [], es, h => by cases h; rfl
  | [_], es, h => by cases h
  | z :: r :: bs, es, h => by
    unfold readZones at h
    split at h
    case h_1 e es' _ rest =>
      cases h
      simp only [List.length_cons, length_readZones rest]
      omega
    case h_2 => cases h

theorem length_readNumbers (w n : Nat) (bs : Bytes) : (readNumbers w n bs).length = n := by
  induction n generalizing bs with
  | zero => rfl
  | succ n ih => simp [readNumbers, ih]

theorem ascending_pairwise : ∀ {l : List Nat}, ascending l = true → l.Pairwise (· < ·)
  | [], _ => List.Pairwise.nil
  | [a], _ => List.pairwise_singleton _ a
  | a :: b :: rest, h => by
    unfold ascending at h
    simp only [Bool.and_eq_true, decide_eq_true_eq] at h
    have tail := ascending_pairwise h.2
    refine List.pairwise_cons.2 ⟨fun x hx => ?_, tail⟩
    obtain rfl | hx := List.mem_cons.1 hx
    · exact h.1
    · exact h.1.trans ((List.pairwise_cons.1 tail).1 x hx)

/-- The ranges of R39. -/
def Departure.InRanges (d : Departure) : Prop :=
  d.route ≤ 239 ∧ d.index ≤ 5 ∧ d.cutOff ≤ 1439 ∧ 1000 ≤ d.capacity.weight ∧ d.capacity.weight ≤ 30000000 ∧
  1 ≤ d.capacity.litres ∧ d.capacity.litres ≤ 100000 ∧ 1 ≤ d.capacity.pieces ∧ d.capacity.pieces ≤ 4000

theorem readDeparture_inRanges {route i : Nat} {bs : Bytes} {d : Departure} (h : readDeparture route i bs = some d)
    (lowRoute : route ≤ 239) (lowIndex : i ≤ 5) : d.InRanges ∧ d.route = route ∧ d.index = i := by
  unfold readDeparture at h
  simp only at h
  split at h
  case isTrue ranges =>
    obtain ⟨cutOff, -, -, kg, kg', litres, litres', pieces, pieces', -⟩ := ranges
    cases h
    refine ⟨⟨lowRoute, lowIndex, cutOff, ?_, ?_, litres, litres', pieces, pieces'⟩, rfl, rfl⟩
    · exact Nat.le_mul_of_pos_left 1000 kg
    · exact Nat.mul_le_mul_right 1000 kg'
  case isFalse => cases h

/-- The departures of one route, in index order. -/
theorem readDepartures_spec {route : Nat} (lowRoute : route ≤ 239) : ∀ {i d : Nat} {bs rest : Bytes} {es : List Departure},
    i + d ≤ 6 → readDepartures route i d bs = some (es, rest) →
    (∀ e ∈ es, e.InRanges ∧ e.route = route ∧ i ≤ e.index) ∧ es.Pairwise (fun a b => a.index < b.index)
  | i, 0, bs, rest, es, _, h => by cases h; exact ⟨nofun, List.Pairwise.nil⟩
  | i, d + 1, bs, rest, es, low, h => by
    unfold readDepartures at h
    split at h
    · cases h
    · split at h
      case h_1 e es' rest' first later =>
        cases h
        obtain ⟨ranges, sameRoute, index⟩ := readDeparture_inRanges first lowRoute (by omega)
        obtain ⟨others, ordered⟩ := readDepartures_spec lowRoute (i := i + 1) (by omega) later
        refine ⟨fun x hx => ?_, List.pairwise_cons.2 ⟨fun x hx => ?_, ordered⟩⟩
        · obtain rfl | hx := List.mem_cons.1 hx
          · exact ⟨ranges, sameRoute, index.ge⟩
          · obtain ⟨r, s, k⟩ := others x hx
            exact ⟨r, s, by omega⟩
        · have := (others x hx).2.2
          omega
      case h_2 => cases h

/-- The plan's order: rising lot IDs, and rising cut-offs along a route (R38, R39). -/
def Departure.Before (a b : Departure) : Prop := a.lot < b.lot ∧ (a.route = b.route → a.cutOff < b.cutOff)

theorem readRoutes_spec : ∀ {least n : Nat} {bs rest : Bytes} {es : List Departure},
    readRoutes least n bs = some (es, rest) → (∀ e ∈ es, e.InRanges ∧ least ≤ e.route) ∧ es.Pairwise Departure.Before
  | least, 0, bs, rest, es, h => by cases h; exact ⟨nofun, List.Pairwise.nil⟩
  | least, n + 1, bs, rest, es, h => by
    unfold readRoutes at h
    split at h
    · cases h
    simp only at h
    split at h
    · cases h
    case isFalse counts =>
    split at h
    · cases h
    case h_2 own rest' one =>
    split at h
    · cases h
    case isFalse sorted =>
    split at h
    case h_2 => cases h
    case h_1 more rest'' later =>
    cases h
    obtain ⟨ranges, indexed⟩ := readDepartures_spec (by omega) (by omega) one
    obtain ⟨others, ordered⟩ := readRoutes_spec later
    have cutOffs : own.Pairwise (fun a b => a.cutOff < b.cutOff) :=
      List.pairwise_map.1 (ascending_pairwise (by simpa using sorted))
    refine ⟨fun e he => ?_, List.pairwise_append.2 ⟨?_, ordered, fun a ha b hb => ?_⟩⟩
    · obtain he | he := List.mem_append.1 he
      · exact ⟨(ranges e he).1, by have := (ranges e he).2.1; omega⟩
      · exact ⟨(others e he).1, by have := (others e he).2; omega⟩
    · refine (indexed.and cutOffs).imp_of_mem fun {a b} ha hb both => ⟨?_, fun _ => both.2⟩
      have sameA := (ranges a ha).2.1
      have sameB := (ranges b hb).2.1
      have index := both.1
      show a.route * 8 + a.index < b.route * 8 + b.index
      omega
    · have sameA := (ranges a ha).2.1
      have low := (ranges a ha).1.2.1
      have high := (others b hb).2
      refine ⟨?_, by omega⟩
      show a.route * 8 + a.index < b.route * 8 + b.index
      omega

theorem planOfBody_spec {bs : Bytes} {es : List Departure} (h : planOfBody bs = some es) :
    es.length ≤ 1024 ∧ (∀ e ∈ es, e.InRanges) ∧ es.Pairwise Departure.Before := by
  unfold planOfBody at h
  simp only at h
  split at h
  · cases h
  · split at h
    case h_1 es' routes =>
      split at h
      case isTrue short =>
        cases h
        obtain ⟨ranges, ordered⟩ := readRoutes_spec routes
        exact ⟨short, fun e he => (ranges e he).1, ordered⟩
      case isFalse => cases h
    case h_2 => cases h

/-- The substitution of R40 changes the home alone. -/
theorem substituteHome_eq (count : Nat) (d : Departure) :
    substituteHome count d = { d with home := (substituteHome count d).home } := by
  unfold substituteHome
  split <;> rfl

theorem substituteHome_home {count : Nat} (some' : 1 ≤ count) (d : Departure) : (substituteHome count d).home < count := by
  unfold substituteHome
  split
  case isTrue h => exact h
  case isFalse => exact Nat.mod_lt _ some'

theorem loadImage_ok {c : Configuration} {f : Flash} {t : Tariff} (h : loadImage c f = .ok t) :
    (∃ body, zonesOf body = some t.zones) ∧ (∃ body, discountsOf body = some t.discounts) ∧
      ∃ body plan, planOfBody body = some plan ∧ t.plan = plan.map (substituteHome c.stationCount) := by
  cases passes : checkHeader c (readBytes f 0 16) with
  | error e => rw [loadImage_header_error passes] at h; cases h
  | ok header =>
    rw [loadImage_header_ok passes] at h
    obtain ⟨e, -, loads⟩ | ⟨t', -, loads, -, -, -, -, holds⟩ := loadSections_cases f c header (walk f 16 header.first)
    · rw [loads] at h; cases h
    · rw [loads] at h
      cases h
      exact holds

/-- The plan of a loaded image, in its order and ranges. -/
theorem loadImage_plan {c : Configuration} {f : Flash} {t : Tariff} (h : loadImage c f = .ok t) :
    t.plan.length ≤ 1024 ∧ t.plan.Pairwise Departure.Before ∧ (∀ d ∈ t.plan, d.InRanges) ∧
      (1 ≤ c.stationCount → ∀ d ∈ t.plan, d.home < c.stationCount) := by
  obtain ⟨-, -, body, plan, read, same⟩ := loadImage_ok h
  obtain ⟨length, ranges, ordered⟩ := planOfBody_spec read
  rw [same]
  refine ⟨by simpa using length, List.pairwise_map.2 (ordered.imp fun {a b} both => ?_), fun d hd => ?_, fun some' d hd => ?_⟩
  · rw [substituteHome_eq, substituteHome_eq c.stationCount b]
    exact both
  · obtain ⟨e, he, rfl⟩ := List.mem_map.1 hd
    rw [substituteHome_eq]
    exact ranges e he
  · obtain ⟨e, he, rfl⟩ := List.mem_map.1 hd
    exact substituteHome_home some' e

/-- Settles O26. -/
theorem loadedPlanIsConsistent : Obligations.LoadedPlanIsConsistent := by
  intro c f t some' h
  obtain ⟨⟨zonesBody, zones⟩, ⟨discountsBody, discounts⟩, -⟩ := loadImage_ok h
  obtain ⟨length, ordered, ranges, homes⟩ := loadImage_plan h
  refine ⟨?_, ?_, ?_, length, List.pairwise_map.2 (ordered.imp fun both => both.1), ordered.imp fun both => both.2,
    fun d hd => ⟨homes some' d hd, ranges d hd⟩⟩
  · unfold zonesOf at zones
    split at zones
    case isTrue bytes =>
      have := length_readZones zones
      omega
    case isFalse => cases zones
  all_goals
    unfold discountsOf at discounts
    split at discounts
    case isFalse => cases discounts
  · rw [← Option.some.inj discounts]
    exact length_readNumbers 2 7 discountsBody
  case isTrue bounded =>
    rw [← Option.some.inj discounts]
    simpa using bounded.2

/-! ### The completion of the load (R41, R100, R113) -/

/-- A home record as it is built, apart from the TALLY that its cut-off may already have brought. -/
structure State.FreshHome (s : State) (t : Tariff) (tested : List Nat) (r : HomeRecord) : Prop where
  built : ∃ d ∈ t.plan, d.home = s.own ∧ ∃ g, r = { freshHome s.config.opening d with frame := g } ∧
    (g.isSome = true ↔ d.lot ∈ tested ∧ s.config.opening = true ∧ d.cutOff ≤ s.minute) ∧ ∀ f, g = some f → f.kind = .tally

theorem testTally_home_eq (s : State) (lot : Nat) : s.testTally (.home lot) =
    { s with home := (s.testTally (.home lot)).home, ordinal := (s.testTally (.home lot)).ordinal } := by
  unfold State.testTally
  split <;> rfl

theorem planLot_of_mem {s : State} {t : Tariff} (store : s.store = .loaded t) (ordered : t.plan.Pairwise Departure.Before)
    {d : Departure} (hd : d ∈ t.plan) : s.planLot d.lot = some d := by
  rw [State.planLot, State.tariff, store]
  have find : ∀ plan : List Departure, plan.Pairwise Departure.Before → d ∈ plan →
      plan.find? (fun x => x.lot == d.lot) = some d := by
    intro plan ordered hd
    induction plan with
    | nil => cases hd
    | cons x xs ih =>
      obtain ⟨first, ordered⟩ := List.pairwise_cons.1 ordered
      obtain rfl | hd := List.mem_cons.1 hd
      · simp
      · have := (first d hd).1
        rw [List.find?_cons_of_neg (by simp; omega)]
        exact ih ordered hd
  exact find t.plan ordered hd

/-- One home record tested. -/
theorem testTally_fresh {s : State} {t : Tariff} (store : s.store = .loaded t) (ordered : t.plan.Pairwise Departure.Before)
    (distinct : s.HomeDistinct) {tested : List Nat} (fresh : ∀ r ∈ s.home, s.FreshHome t tested r) (lot : Nat) :
    ∀ r ∈ (s.testTally (.home lot)).home, s.FreshHome t (lot :: tested) r := by
  have other {r : HomeRecord} (h : s.FreshHome t tested r) (differs : r.lot ≠ lot) : s.FreshHome t (lot :: tested) r := by
    obtain ⟨d, hd, home, g, rfl, frame, kind⟩ := h.built
    refine ⟨d, hd, home, g, rfl, frame.trans (and_congr_left fun _ => ?_), kind⟩
    have differs' : d.lot ≠ lot := differs
    simp [differs']
  unfold State.testTally
  split
  case isTrue due =>
    intro r' hr'
    obtain ⟨r, hr, rfl⟩ := List.mem_map.1 hr'
    dsimp only
    split
    case isFalse differs => exact other (fresh r hr) differs
    case isTrue same =>
      obtain ⟨d, hd, home, g, rfl, frame, kind⟩ := (fresh r hr).built
      have found := findHome_of_mem distinct hr
      rw [same] at found
      obtain rfl : d.lot = lot := same
      unfold State.tallyDue at due
      simp only [found, State.pastCutOff, planLot_of_mem store ordered hd, Bool.and_eq_true, decide_eq_true_eq,
        HomeRecord.holds, beq_iff_eq] at due
      obtain ⟨⟨⟨holds, past⟩, -⟩, free⟩ := due
      have opening : s.config.opening = true := by
        by_contra closed
        simp [freshHome, closed] at holds
      refine ⟨d, hd, home, some ⟨.tally, 0, s.ordinal⟩, ?_, by simp [opening, past], fun f e => ?_⟩
      · have replaced : queueFrame g ⟨.tally, 0, s.ordinal⟩ = some ⟨.tally, 0, s.ordinal⟩ := if_pos free
        simp only [HomeRecord.queued, replaced]
        simp [freshHome]
      · obtain rfl := Option.some.inj e
        rfl
  case isFalse notDue =>
    intro r hr
    by_cases same : r.lot = lot
    · obtain ⟨d, hd, home, g, rfl, frame, kind⟩ := (fresh r hr).built
      have found := findHome_of_mem distinct hr
      rw [same] at found
      obtain rfl : d.lot = lot := same
      refine ⟨d, hd, home, g, rfl, ?_, kind⟩
      cases g with
      | some f => exact iff_of_true rfl ⟨List.mem_cons_self, (frame.1 rfl).2⟩
      | none =>
        refine iff_of_false nofun fun h => notDue ?_
        obtain ⟨-, opening, past⟩ := h
        unfold State.tallyDue
        simp only [found, State.pastCutOff, planLot_of_mem store ordered hd]
        simp [HomeRecord.holds, freshHome, opening, past, queueable]
    · exact other (fresh r hr) same

/-- The tests one after the other: nothing but home records and order numbers changes. -/
theorem testTallies_fresh {t : Tariff} (ordered : t.plan.Pairwise Departure.Before) (lots : List Nat) :
    ∀ {s : State} {tested : List Nat}, s.store = .loaded t → s.HomeDistinct → (∀ r ∈ s.home, s.FreshHome t tested r) →
      let u := lots.foldl (fun s lot => s.testTally (.home lot)) s
      u = { s with home := u.home, ordinal := u.ordinal } ∧ ∀ r ∈ u.home, s.FreshHome t (lots.reverse ++ tested) r := by
  induction lots with
  | nil => exact fun _ _ fresh => ⟨rfl, fresh⟩
  | cons lot lots ih =>
    intro s tested store distinct fresh
    have eq := testTally_home_eq s lot
    have step := LotStep.testTally s (.home lot)
    have fresh' := testTally_fresh store ordered distinct fresh lot
    have read (tested : List Nat) (r : HomeRecord) :
        (s.testTally (.home lot)).FreshHome t tested r ↔ s.FreshHome t tested r := by
      rw [eq]
      exact ⟨fun h => ⟨h.built⟩, fun h => ⟨h.built⟩⟩
    obtain ⟨rest, tallied⟩ := ih (s := s.testTally (.home lot)) (tested := lot :: tested) (step.store.trans store)
      (by rw [State.HomeDistinct, step.homeLots]; exact distinct) fun r hr => (read _ r).2 (fresh' r hr)
    refine ⟨rest.trans ((congrArg (fun x : State => { x with
      home := (lots.foldl (fun (s : State) lot => s.testTally (.home lot)) (s.testTally (.home lot))).home
      ordinal := (lots.foldl (fun (s : State) lot => s.testTally (.home lot)) (s.testTally (.home lot))).ordinal }) eq).trans rfl),
      fun r hr => ?_⟩
    · have h := (read _ r).1 (tallied r hr)
      simpa using h

theorem buildHome_fresh {s : State} (t : Tariff) : ∀ r ∈ buildHome s.config t, s.FreshHome t [] r := by
  intro r hr
  obtain ⟨d, hd, rfl⟩ := List.mem_map.1 hr
  obtain ⟨hd, home⟩ := List.mem_filter.1 hd
  exact ⟨d, hd, beq_iff_eq.1 home, none, rfl, by simp, nofun⟩

theorem buildHome_lots (c : Configuration) (t : Tariff) :
    (buildHome c t).map (·.lot) = (t.plan.filter (fun d => d.home == c.stationNumber)).map (·.lot) := by
  rw [buildHome, List.map_map]
  rfl

theorem buildHome_distinct (c : Configuration) {t : Tariff} (ordered : t.plan.Pairwise Departure.Before) :
    ((buildHome c t).map (·.lot)).Nodup := by
  rw [buildHome_lots]
  refine List.pairwise_map.2 ((ordered.sublist List.filter_sublist).imp fun both e => ?_)
  exact absurd both.1 (e ▸ Nat.lt_irrefl _)

/-- Settles O27: the home store is built, then each of its records is tested for TALLY. -/
theorem loadCompletes : Obligations.LoadCompletes := by
  intro f s t running loading loads
  obtain ⟨-, ordered, -⟩ := loadImage_plan loads
  have completed : exec (.loadCompletes f) s = .next (s.completeLoad t) := by
    refine congrArg _ ((State.whenRunning_running _ running).trans ?_)
    rw [State.endLoad, loading, loads]
  refine ⟨_, completed, ?_⟩
  obtain ⟨eq, fresh⟩ := testTallies_fresh ordered ((buildHome s.config t).map (·.lot)) (s := { s with
      store := .loaded t, screen := some t.defaultScreen, home := buildHome s.config t, line.state := .listen
      station := .ready }) (tested := []) rfl (buildHome_distinct s.config ordered) fun r hr => ⟨(buildHome_fresh t r hr).built⟩
  have lots := (LotsKept.testAllTallies { s with
      store := .loaded t, screen := some t.defaultScreen, home := buildHome s.config t, line.state := .listen
      station := .ready }).lots
  change s.completeLoad t = _ at eq
  refine ⟨by rw [eq], by rw [eq], by rw [eq], by rw [eq], lots.trans (buildHome_lots _ _), fun r hr => ?_, by rw [eq],
    by rw [eq], by rw [eq], by rw [eq], by rw [eq], by rw [eq], by rw [eq]⟩
  obtain ⟨d, hd, home, g, same, frame, kind⟩ := (fresh r hr).built
  have isTested : d.lot ∈ ((buildHome s.config t).map (·.lot)).reverse ++ [] := by
    rw [List.append_nil, List.mem_reverse, buildHome_lots]
    exact List.mem_map_of_mem (List.mem_filter.2 ⟨hd, beq_iff_eq.2 home⟩)
  rw [same]
  exact ⟨d, hd, home, rfl, rfl, rfl, rfl, rfl, rfl, rfl, rfl, rfl, rfl, frame.trans (and_iff_right isTested), kind⟩

end Sys2Proof.Machine
end

section
/-! The lot records through every command: O8 and O13. -/

namespace Sys2Proof.Machine

/-! ### The line leaves the lot records as they are, but for a frame cleared at its acceptance -/

def SameRecords (s t : State) : Prop := t.home = s.home ∧ t.table = s.table

namespace SameRecords

variable {s t u : State}

theorem refl (s : State) : SameRecords s s := ⟨rfl, rfl⟩

theorem trans (h : SameRecords s t) (k : SameRecords t u) : SameRecords s u := ⟨k.1.trans h.1, k.2.trans h.2⟩

theorem of_slotStep (h : SlotStep s t) : SameRecords s t := by
  obtain ⟨-, -, -, -, -, -, -, -, -, home, table, -⟩ := h.outside
  exact ⟨home, table⟩

theorem queueHello (s : State) : SameRecords s s.queueHello := by
  unfold State.queueHello
  split <;> exact ⟨rfl, rfl⟩

theorem seeIdle (s : State) : SameRecords s s.seeIdle := by
  unfold State.seeIdle
  split
  · exact queueHello { s with line.state := .joining }
  · exact refl s

theorem startFrame (s : State) : SameRecords s s.startFrame := by
  unfold State.startFrame
  split <;> exact ⟨rfl, rfl⟩

theorem winLine (s : State) : SameRecords s s.winLine := by
  unfold State.winLine
  split
  · split
    · exact refl s
    · split <;> exact ⟨rfl, rfl⟩
  · exact refl s

theorem loseArbitration (s : State) : SameRecords s s.loseArbitration := by
  unfold State.loseArbitration
  split
  · split <;> exact ⟨rfl, rfl⟩
  · exact refl s

theorem enterDuplicate (s : State) : SameRecords s s.enterDuplicate := by
  unfold State.enterDuplicate
  split <;> exact ⟨rfl, rfl⟩

theorem failAttempt (s : State) (t : Transmission) : SameRecords s (s.failAttempt t) := by
  unfold State.failAttempt
  dsimp only
  split
  · split <;> exact ⟨rfl, rfl⟩
  · exact ⟨rfl, rfl⟩

theorem readbackFails (s : State) : SameRecords s s.readbackFails := by
  unfold State.readbackFails
  split
  · split
    · exact failAttempt _ _
    · exact ⟨rfl, rfl⟩
  · exact refl s

theorem readbackOther (s : State) : SameRecords s s.readbackOther := by
  unfold State.readbackOther
  split
  · split
    · exact enterDuplicate s.stopSending
    · exact refl s
  · exact refl s

theorem hearRejected (s : State) (drove : Bool) : SameRecords s (s.hearRejected drove) := by
  unfold State.hearRejected
  split
  · exact refl s
  · dsimp only
    split
    · split
      · exact failAttempt { s.countRejected with line.droveSlot := drove && !s.line.sends } _
      · exact ⟨rfl, rfl⟩
    · exact ⟨rfl, rfl⟩

theorem faultExpiry (s : State) : SameRecords s s.faultExpiry := by
  unfold State.faultExpiry
  split <;> exact ⟨rfl, rfl⟩

theorem beaconExpiry (s : State) : SameRecords s s.beaconExpiry := by
  unfold State.beaconExpiry
  split
  · exact queueHello { s with line.beaconTimer := none }
  · exact refl s

theorem onHello (s : State) (edition : Nat) (mine : Bool) : SameRecords s (s.onHello edition mine) := by
  unfold State.onHello
  split
  · split <;> exact ⟨rfl, rfl⟩
  · split <;> exact ⟨rfl, rfl⟩

end SameRecords

/-- An accepted frame clears at most the pending frame of its record (R121, R153). -/
theorem takeFrame_records (s : State) (f : HallFrame) :
    SameRecords s (s.takeFrame f) ∨ ∃ o, SameRecords (s.clearFrame o) (s.takeFrame f) := by
  unfold State.takeFrame
  dsimp only
  split
  case h_1 t _ =>
    unfold State.ownAccepted
    dsimp only
    split
    case h_1 =>
      refine .inr ⟨t.owner, ?_⟩
      cases t.owner <;> exact ⟨rfl, rfl⟩
    case h_2 => exact .inl ⟨rfl, rfl⟩
  case h_2 =>
    split
    · exact .inl (SameRecords.enterDuplicate (s.markPresent f.sender))
    · exact .inl ⟨rfl, rfl⟩

/-! ### What a command keeps -/

/-- Nothing is held of a lot (R100). -/
def State.HoldsNothing (s : State) : Prop := s.home = [] ∧ ∀ e ∈ s.table, e = LotEntry.cleared

namespace State.HoldsNothing

variable {s t : State}

theorem of_same (h : s.HoldsNothing) (same : SameRecords s t) : t.HoldsNothing := by
  rw [HoldsNothing, same.1, same.2]
  exact h

theorem entry (h : s.HoldsNothing) (i : Nat) : s.entry i = LotEntry.cleared := by
  by_cases inTable : i < s.table.length
  · exact h.2 _ (entry_mem s i inTable)
  · exact entry_of_ge s i inTable

theorem findHome (h : s.HoldsNothing) (lot : Nat) : s.findHome lot = none := by
  rw [State.findHome, h.1]
  rfl

theorem recordOf (h : s.HoldsNothing) (lot : Nat) : s.recordOf lot = none ∧ s.incomingOf lot = none := by
  have unnamed : s.entryOf lot = none := entryOf_none.2 fun e he => by rw [h.2 e he]; nofun
  refine ⟨by rw [State.recordOf, h.findHome, unnamed]; rfl, incomingOf_none.2 fun e he => by rw [h.2 e he]; nofun⟩

theorem updateEntry (h : s.HoldsNothing) (i : Nat) {f : LotEntry → LotEntry} (still : f LotEntry.cleared = LotEntry.cleared) :
    (s.updateEntry i f).HoldsNothing := by
  refine ⟨h.1, fun e he => ?_⟩
  obtain ⟨j, hj⟩ := List.getElem?_of_mem he
  have entry := entry_updateEntry s i j f
  rw [h.entry i, h.entry j, still, ite_self, State.entry, List.getD_eq_getElem?_getD, hj] at entry
  exact entry

theorem clearFrame (h : s.HoldsNothing) (o : FrameOwner) : (s.clearFrame o).HoldsNothing := by
  cases o with
  | home lot => exact ⟨by rw [State.clearFrame, State.updateHome, h.1]; rfl, h.2⟩
  | entry i => exact h.updateEntry i rfl
  | hello => exact h

end State.HoldsNothing

/-- What a command keeps of the lot records. -/
structure RecordsKept (s t : State) : Prop where
  fits : s.LotsFit → t.LotsFit
  distinct : s.HomeDistinct → t.HomeDistinct
  ended : s.HomeDistinct → s.station ≠ .loading → ∀ r ∈ s.home, r.state = .ended →
    ∃ r' ∈ t.home, r'.lot = r.lot ∧ r'.state = .ended ∧ r'.figures = r.figures

namespace RecordsKept

variable {s t u : State}

/-- A change by the lot controller: outside service it changes nothing held. -/
theorem of_lotsKept (h : LotsKept s t) (service : t.inService = s.inService)
    (still : s.inService = false → s.HoldsNothing → t.HoldsNothing) : RecordsKept s t where
  fits f := by
    obtain ⟨inv, nothing⟩ := (lotsFit_iff s).1 f
    exact (lotsFit_iff t).2 ⟨h.inv inv, fun out => still (service ▸ out) (nothing (service ▸ out))⟩
  distinct d := (LotsKept.homeDistinct_congr h).2 d
  ended d _ := h.ended d

theorem inService_congr (station : t.station = s.station) : t.inService = s.inService := by
  rw [State.inService, State.inService, station]

/-- A change by the lot controller while the station is in service. -/
theorem of_service (h : LotsKept s t) (before : s.inService = true) (after : t.inService = true) : RecordsKept s t :=
  of_lotsKept h (after.trans before.symm) fun out => by rw [before] at out; cases out

/-- The records are left as they are. -/
theorem of_same (records : SameRecords s t) (store : t.store = s.store) (configuration : t.configuration = s.configuration)
    (station : t.station = s.station) : RecordsKept s t :=
  of_lotsKept (.of_same store configuration records.1 records.2) (inService_congr station)
    fun _ nothing => nothing.of_same records

theorem refl (s : State) : RecordsKept s s := of_same ⟨rfl, rfl⟩ rfl rfl rfl

theorem setResponse (s : State) (r : Option Response) : RecordsKept s { s with response := r } :=
  of_same ⟨rfl, rfl⟩ rfl rfl rfl

theorem of_slotStep (h : SlotStep s t) : RecordsKept s t := by
  obtain ⟨-, -, station, configuration, -, -, -, store, -, home, table, -⟩ := h.outside
  exact of_same ⟨home, table⟩ store configuration station

/-- A change of the line that leaves the lot records. -/
theorem of_lineStep (h : LineStep s t) (records : SameRecords s t) : RecordsKept s t :=
  of_same records h.store h.configuration h.station

/-- Two commands' worth, the first of which leaves the station state. -/
theorem trans (h : RecordsKept s t) (station : t.station = s.station) (k : RecordsKept t u) : RecordsKept s u where
  fits f := k.fits (h.fits f)
  distinct d := k.distinct (h.distinct d)
  ended d notLoading r member isEnded := by
    obtain ⟨r', member', lot', state', figures'⟩ := h.ended d notLoading r member isEnded
    obtain ⟨r'', member'', lot'', state'', figures''⟩ := k.ended (h.distinct d) (station ▸ notLoading) r' member' state'
    exact ⟨r'', member'', lot''.trans lot', state'', figures''.trans figures'⟩

theorem exchange (s : State) (c : PortCommand) (action : State → State)
    (taken : availability c s.station = none → RecordsKept s (action s)) : RecordsKept s (s.exchange c action) :=
  State.exchange_induction s c action (setResponse s) fun _ => taken

theorem whenRunning (s : State) (action : State → State) (acts : RecordsKept s (action s)) :
    RecordsKept s (s.whenRunning action) :=
  State.whenRunning_induction s action (refl s) fun _ => acts

/-! ### The line -/

/-- The pending frame of a record is not described. -/
theorem clearFrame_lotsKept (s : State) (o : FrameOwner) : LotsKept s (s.clearFrame o) := by
  cases o with
  | home lot => exact LotsKept.updateHome_rest s lot _ fun _ => ⟨rfl, rfl, rfl, rfl, rfl⟩
  | entry i => exact LotsKept.updateEntry_rest s i _ fun _ => ⟨rfl, rfl, rfl, rfl⟩
  | hello => exact .of_same rfl rfl rfl rfl

theorem takeFrame_lotsKept (s : State) (f : HallFrame) : LotsKept s (s.takeFrame f) := by
  have step := LineStep.takeFrame s f
  obtain same | ⟨o, same⟩ := takeFrame_records s f
  · exact .of_same step.store step.configuration same.1 same.2
  · have cleared := LineStep.clearFrame s o
    exact (clearFrame_lotsKept s o).trans (.of_same (step.store.trans cleared.store.symm)
      (step.configuration.trans cleared.configuration.symm) same.1 same.2)

theorem takeFrame (s : State) (f : HallFrame) : RecordsKept s (s.takeFrame f) := by
  refine of_lotsKept (takeFrame_lotsKept s f) (inService_congr (LineStep.takeFrame s f).station) fun _ nothing => ?_
  obtain same | ⟨o, same⟩ := takeFrame_records s f
  · exact nothing.of_same same
  · exact (nothing.clearFrame o).of_same same

theorem inService_settleLeaving {s : State} (service : s.inService = true) : s.settleLeaving.inService = true := by
  unfold State.settleLeaving
  split
  · rfl
  · exact service

theorem acceptLotFrame (s : State) (f : HallFrame) (deliver : State → State) (steps : ∀ s, LotStep s (deliver s))
    (lots : ∀ s, LotsKept s (deliver s)) : RecordsKept s (s.acceptLotFrame f deliver) := by
  unfold State.acceptLotFrame
  split
  · exact refl s
  · split
    case isTrue service =>
      have settled : LotsKept (deliver (s.takeFrame f)) (deliver (s.takeFrame f)).settleLeaving := by
        unfold State.settleLeaving
        split <;> exact .of_same rfl rfl rfl rfl
      refine of_service (((takeFrame_lotsKept s f).trans (lots _)).trans settled) service (inService_settleLeaving ?_)
      rw [inService_congr ((steps _).station.trans (LineStep.takeFrame s f).station)]
      exact service
    case isFalse => exact takeFrame s f

/-! ### Ring and terminal -/

theorem rateAlone_lotsKept (s : State) (t : Tariff) (i : Nat) (p : ParcelRecord) : LotsKept s (s.rateAlone t i p) := by
  have written (r : RatingResult) (fs : List Flag) := LotsKept.of_slotStep (slotStep_ratedAt s i r fs)
  unfold State.rateAlone
  dsimp only
  split
  · exact (written _ _).trans (.of_slotStep (SlotStep.completeParcel _ _ _ _))
  · exact (written _ _).trans ((LotsKept.of_slotStep (SlotStep.updateSlot _ _ _)).trans (LotsKept.startRequest _ _))

theorem rateConsignment_lotsKept (s : State) (t : Tariff) (is : List Nat) (service : Nat) :
    LotsKept s (s.rateConsignment t is service) := by
  have written (l : List (Nat × Option RatingResult)) (fs : List Flag) : SlotStep s ((s.writeRatings l).raiseAll fs) :=
    (SlotStep.writeRatings s l).trans (SlotStep.raiseAll _ fs)
  have sought (s : State) : SlotStep s (is.foldl State.seek s) :=
    SlotStep.foldl State.seek (fun s i => SlotStep.updateSlot s i _) is s
  unfold State.rateConsignment
  dsimp only
  split
  · exact (LotsKept.of_slotStep ((written _ _).trans (sought _))).trans (LotsKept.startRequest _ _)
  · exact LotsKept.of_slotStep (((written _ _).trans (SlotStep.refuseRated _ _)).trans (SlotStep.raise _ _))

theorem refuseConsignment_lotsKept (s : State) (is : List Nat) (why : Reason) (f : Flag) :
    LotsKept s (s.refuseConsignment is why f) := by
  obtain ⟨⟨-, -, -, configuration, -, -, -, store, -, home, table, -⟩, -⟩ := refuseConsignment_outside s is why f
  exact .of_same store configuration home table

theorem endOpenConsignment_lotsKept (s : State) : LotsKept s s.endOpenConsignment := by
  unfold State.endOpenConsignment
  split
  · exact refuseConsignment_lotsKept _ _ _ _
  · exact .refl s

theorem takeRecord_lotsKept (s : State) (t : Tariff) (i : Nat) (r : Record) : LotsKept s (s.takeRecord t i r) := by
  have ended := endOpenConsignment_lotsKept s
  have alone := LotsKept.of_slotStep (SlotStep.refuseAlone s i)
  have closed (s : State) : LotsKept s s.closeConsignment := .of_same rfl rfl rfl rfl
  unfold State.takeRecord
  split
  · refine ended.trans ?_
    unfold State.takeScreen
    split
    · exact (LotsKept.of_slotStep (SlotStep.completeScreen _ i _)).trans (.of_same rfl rfl rfl rfl)
    · exact .of_slotStep (SlotStep.completeScreen _ i _)
  · split
    · exact ended.trans (.of_same rfl rfl rfl rfl)
    · unfold State.takeMiddle
      split
      · exact alone
      · split
        · exact refuseConsignment_lotsKept _ _ _ _
        · exact .of_same rfl rfl rfl rfl
    · unfold State.takeLast
      split
      · exact alone
      · dsimp only
        split
        · exact refuseConsignment_lotsKept _ _ _ _
        · exact (LotsKept.of_slotStep (SlotStep.linkMembers s _ _ _)).trans
            ((closed _).trans (rateConsignment_lotsKept _ _ _ _))
    · exact ended.trans (rateAlone_lotsKept _ _ _ _)

theorem ratePosition (s : State) : RecordsKept s s.ratePosition := by
  have inService {s : State} (ready : s.station = .ready) : s.inService = true := by rw [State.inService, ready]; rfl
  unfold State.ratePosition
  split
  case h_1 ready _ =>
    split
    · unfold State.rateAct
      split
      case h_1 =>
        have counted : LotsKept s s.counted := .of_same rfl rfl rfl rfl
        exact of_service ((counted.trans (takeRecord_lotsKept _ _ _ _)).trans (.of_same rfl rfl rfl rfl)) (inService ready)
          (inService ((takeRecord_station _ _ _ _).trans ready))
      case h_2 => exact of_same ⟨rfl, rfl⟩ rfl rfl rfl
    · exact refl s
  case h_2 => exact refl s

theorem refuseConsignment (s : State) (is : List Nat) (why : Reason) (f : Flag) :
    RecordsKept s (s.refuseConsignment is why f) := by
  obtain ⟨⟨-, -, station, configuration, -, -, -, store, -, home, table, -⟩, -⟩ := refuseConsignment_outside s is why f
  exact of_same ⟨home, table⟩ store configuration station

theorem watchdogExpiry (s : State) : RecordsKept s s.watchdogExpiry := by
  unfold State.watchdogExpiry
  split
  · exact refuseConsignment _ _ _ _
  · exact refl s

/-- Requests dropped from waiting lists. -/
theorem dropRequest_lotsKept (s : State) (i : Nat) : LotsKept s (s.dropRequest i) where
  store := rfl
  configuration := rfl
  lots := by simp [State.dropRequest]
  inv h := by
    refine ⟨?_, fun r' hr' => ?_, fun e' he' => ?_⟩
    · have names := h.names
      simp only [State.dropRequest, List.flatMap_map]
      convert names using 3
      simp [LotEntry.names, Option.map_map, Function.comp_def]
    · obtain ⟨r, hr, rfl⟩ := List.mem_map.1 hr'
      obtain ⟨waits, figures⟩ := h.home r hr
      exact ⟨waits.filter _, figures⟩
    · obtain ⟨e, he, rfl⟩ := List.mem_map.1 he'
      obtain ⟨foreign, waits, incoming, figures⟩ := h.entries e he
      refine ⟨fun lot hl => foreign lot ?_, fun lot named => (waits lot named).filter _, fun c hc => ?_, figures⟩
      · simpa [LotEntry.names, Option.map_map, Function.comp_def] using hl
      · obtain ⟨c', hc', rfl⟩ := Option.map_eq_some_iff.1 hc
        exact (incoming c' hc').filter _
  ended _ r member isEnded := ⟨_, List.mem_map_of_mem member, rfl, isEnded, rfl⟩

theorem withdrawSeeking (s : State) (i : Nat) : RecordsKept s (s.withdrawSeeking i) := by
  have refused := (slotStep_refuseSeeking (s.dropRequest i) ((s.slot i).membersOf i) none .withdrawn).trans
    (SlotStep.raise _ .withdrawn)
  refine of_lotsKept ((dropRequest_lotsKept s i).trans (.of_slotStep refused))
    (inService_congr refused.outside.2.2.1) fun _ nothing => ?_
  refine State.HoldsNothing.of_same ?_ (SameRecords.of_slotStep refused)
  refine ⟨by rw [State.dropRequest, nothing.1]; rfl, fun e he => ?_⟩
  obtain ⟨e', he', rfl⟩ := List.mem_map.1 he
  rw [nothing.2 e' he']
  rfl

theorem withdrawSlot (s : State) (i : Nat) : RecordsKept s (s.withdrawSlot i) := by
  have answered {t : State} (h : RecordsKept s t) (station : t.station = s.station) (r : Response) :
      RecordsKept s (t.answer r) := h.trans station (setResponse _ _)
  unfold State.withdrawSlot
  split
  · exact answered (of_slotStep (SlotStep.withdrawQueued s i)) (SlotStep.withdrawQueued s i).outside.2.2.1 _
  · refine answered ?_ ?_ _ <;> unfold State.withdrawGrouped <;> split
    · exact refuseConsignment _ _ _ _
    · exact refl s
    · exact (refuseConsignment_outside s _ _ _).1.2.2.1
    · rfl
  · refine answered (withdrawSeeking s i) ?_ _
    exact (SlotStep.raise _ _).outside.2.2.1.trans (LotStep.refuseSeeking (s.dropRequest i) _ _ _).station
  all_goals exact setResponse _ _

theorem submitTaken (s : State) (r : Submission) : RecordsKept s (s.submitTaken r) := by
  have submitRecord (r : Record) : RecordsKept s (s.submitRecord r) := by
    unfold State.submitRecord
    split <;> exact of_same ⟨rfl, rfl⟩ rfl rfl rfl
  cases r with
  | parcel p => exact submitRecord _
  | screen r => exact submitRecord _
  | unknownKind n => exact setResponse _ _

theorem collectSlot (s : State) (i : Nat) : RecordsKept s (s.collectSlot i) := by
  unfold State.collectSlot
  split
  · exact (of_slotStep (SlotStep.emptySlots s _)).trans (SlotStep.emptySlots s _).outside.2.2.1 (setResponse _ _)
  · exact setResponse _ _

theorem clearTaken (s : State) (l : FlagList) : RecordsKept s (s.clearTaken l) := by
  unfold State.clearTaken
  split <;> exact of_same ⟨rfl, rfl⟩ rfl rfl rfl

theorem leaveTaken (s : State) (ready : s.station = .ready) : RecordsKept s s.leaveTaken := by
  unfold State.leaveTaken
  split
  case isTrue =>
    have left : LotsKept s { s with station := .leaving } := .of_same rfl rfl rfl rfl
    have table := LotsKept.leaveTable { s with station := .leaving }
    have station := (LotStep.leaveTable { s with station := .leaving }).station
    have settled : LotsKept (State.leaveTable { s with station := .leaving })
        (State.leaveTable { s with station := .leaving }).settleLeaving := by
      unfold State.settleLeaving
      split <;> exact .of_same rfl rfl rfl rfl
    refine of_service (((left.trans table).trans settled).trans (.of_same rfl rfl rfl rfl))
      (by rw [State.inService, ready]; rfl) ?_
    exact inService_settleLeaving (by rw [State.inService, station]; rfl)
  case isFalse => exact setResponse _ _

/-! ### Clock and timers -/

theorem reachCutOff_still {s : State} (h : s.HoldsNothing) (lot : Nat) : (s.reachCutOff lot).HoldsNothing := by
  obtain ⟨record, incoming⟩ := h.recordOf lot
  have unnamed : s.entryOf lot = none := entryOf_none.2 fun e he => by rw [h.2 e he]; nofun
  have released : s.releaseWaiting lot = (s.updateHome lot (fun r => { r with waiting := [] }), []) := by
    simp only [State.releaseWaiting, h.findHome, unnamed, incoming, List.foldr_nil]
  have still : (s.updateHome lot (fun r => { r with waiting := [] })).HoldsNothing :=
    ⟨by rw [State.updateHome, h.1]; rfl, h.2⟩
  rw [State.reachCutOff, released]
  simp only [State.moveOnAll, List.foldl_nil, State.testTallyOf, (still.recordOf lot).1]
  exact still

theorem foldl_still {α : Type} {f : State → α → State} (each : ∀ s a, s.HoldsNothing → (f s a).HoldsNothing) (as : List α) :
    ∀ s : State, s.HoldsNothing → (as.foldl f s).HoldsNothing := by
  induction as with
  | nil => exact fun _ h => h
  | cons a as ih => exact fun s h => ih _ (each s a h)

theorem advanceClock (s : State) : RecordsKept s s.advanceClock := by
  unfold State.advanceClock
  split
  · exact refl s
  case h_2 c _ =>
    split
    · have advanced : LotsKept s { s with clock := some ⟨c.minute + 1, 0⟩ } := .of_same rfl rfl rfl rfl
      exact of_lotsKept (advanced.trans (LotsKept.foldl _ LotsKept.reachCutOff _ _))
        (inService_congr (LotStep.foldl _ LotStep.reachCutOff _ _).station)
        fun _ nothing => foldl_still (fun _ lot h => reachCutOff_still h lot) _ _ nothing
    · exact refl s

theorem homeExpiry (s : State) (lot : Nat) : RecordsKept s (s.homeExpiry lot) :=
  of_lotsKept (.homeExpiry s lot) (inService_congr (LotStep.homeExpiry s lot).station) fun _ nothing => by
    rw [State.homeExpiry, nothing.findHome]
    exact nothing

theorem entryExpiry (s : State) (i : Nat) : RecordsKept s (s.entryExpiry i) :=
  of_lotsKept (.entryExpiry s i) (inService_congr (LotStep.entryExpiry s i).station) fun _ nothing => by
    rw [State.entryExpiry, nothing.entry i]
    exact nothing

theorem publishExpiry_lotStep (s : State) (i : Nat) : LotStep s (s.publishExpiry i) := by
  unfold State.publishExpiry
  dsimp only
  split
  · split
    · exact (LotStep.updateEntry s i _).trans (LotStep.queueRecord _ _ _ _)
    · exact LotStep.updateEntry s i _
  · exact .refl s

theorem publishExpiry (s : State) (i : Nat) : RecordsKept s (s.publishExpiry i) :=
  of_lotsKept (.publishExpiry s i) (inService_congr (publishExpiry_lotStep s i).station) fun _ nothing => by
    rw [State.publishExpiry, nothing.entry i]
    exact nothing

/-! ### CONFIGURE, the load, a warm reset -/

theorem configureTaken (s : State) (r : ConfigRecord) (unconfigured : s.station = .unconfigured) :
    RecordsKept s (s.configureTaken r) := by
  unfold State.configureTaken
  split
  · exact setResponse _ _
  · refine ⟨fun fits => ?_, id, fun _ _ r member isEnded => ⟨r, member, rfl, isEnded, rfl⟩⟩
    have nothing := ((lotsFit_iff s).1 fits).2 (by rw [State.inService, unconfigured]; rfl)
    exact lotsFit_of_cleared nothing.1 fun _ he => List.eq_of_mem_replicate he

theorem endLoad (s : State) (f : Flash) : RecordsKept s (s.endLoad f) := by
  unfold State.endLoad
  split
  case h_2 => exact refl s
  case h_1 t loading loads =>
    obtain ⟨-, ordered, -⟩ := loadImage_plan loads
    have tallied := LotsKept.testAllTallies { s with
      store := .loaded t, screen := some t.defaultScreen, home := buildHome s.config t, line.state := .listen
      station := .ready }
    have step := LotStep.foldl _ (fun s lot => LotStep.testTally s (.home lot)) { s with
      store := .loaded t, screen := some t.defaultScreen, home := buildHome s.config t, line.state := .listen
      station := .ready } ((buildHome s.config t).map (·.lot))
    have distinct : State.HomeDistinct { s with
      store := .loaded t, screen := some t.defaultScreen, home := buildHome s.config t, line.state := .listen
      station := .ready } := buildHome_distinct s.config ordered
    refine ⟨fun fits => ?_, fun _ => (LotsKept.homeDistinct_congr tallied).2 distinct, fun _ notLoading => absurd loading notLoading⟩
    have nothing := ((lotsFit_iff s).1 fits).2 (by rw [State.inService, loading]; rfl)
    refine (lotsFit_iff _).2 ⟨tallied.inv ⟨?_, fun r hr => ?_, fun e he => ?_⟩, fun out => ?_⟩
    · have cleared := (lotsFit_of_cleared (s := { s with home := [] }) rfl nothing.2)
      exact ((lotsFit_iff _).1 cleared).1.names
    · obtain ⟨d, hd, -, g, rfl, -⟩ := (buildHome_fresh t r hr).built
      refine ⟨Waits.nil _, fun owner t' store => ?_, nofun⟩
      cases store
      refine ⟨d, hd, rfl, ?_⟩
      cases opening : s.config.opening with
      | true => simp [freshHome]
      | false => simp [freshHome, opening] at owner
    · rw [nothing.2 e he]
      exact entryFits_cleared _
    · have ready : (State.completeLoad s t).station = .ready := step.station
      rw [State.inService, ready] at out
      cases out

theorem failLoad (s : State) (f : Flash) : RecordsKept s (s.failLoad f) := by
  unfold State.failLoad
  split
  case h_2 => exact refl s
  case h_1 e loading _ =>
    refine ⟨fun fits => ?_, id, fun _ notLoading => absurd loading notLoading⟩
    have nothing := ((lotsFit_iff s).1 fits).2 (by rw [State.inService, loading]; rfl)
    exact lotsFit_of_cleared nothing.1 nothing.2

theorem warm_lot (r : HomeRecord) : r.warm.lot = r.lot := by
  unfold HomeRecord.warm
  split <;> rfl

theorem warm_fits {s : State} {r : HomeRecord} (h : s.HomeFits r) : s.HomeFits r.warm := by
  obtain ⟨-, figures, seen⟩ := h
  unfold HomeRecord.warm
  split
  · refine ⟨Waits.nil _, ?_, seen⟩
    dsimp only
    split <;> simp
  all_goals exact ⟨Waits.nil _, figures, seen⟩

theorem warmReset (s : State) : RecordsKept s (s.warmReset.answer (ok .nothing)) := by
  have requeued := LotsKept.foldl State.requeueHome LotsKept.requeueHome { s with
    ring := Ring.cleared
    table := List.replicate Config.entryCount LotEntry.cleared
    home := s.home.map HomeRecord.warm
    line := s.line.warm
    screen := s.defaultScreen
    station := if s.station = .tariffFault then .tariffFault else .ready }
    ((s.home.map HomeRecord.warm).map (·.lot))
  have station := (LotStep.foldl State.requeueHome Keeps.requeueHome { s with
    ring := Ring.cleared
    table := List.replicate Config.entryCount LotEntry.cleared
    home := s.home.map HomeRecord.warm
    line := s.line.warm
    screen := s.defaultScreen
    station := if s.station = .tariffFault then .tariffFault else .ready }
    ((s.home.map HomeRecord.warm).map (·.lot))).station
  change LotsKept _ s.warmReset at requeued
  change s.warmReset.station = _ at station
  have warmed : State.HomeDistinct s → State.HomeDistinct { s with home := s.home.map HomeRecord.warm } := by
    intro distinct
    have lots : (s.home.map HomeRecord.warm).map (·.lot) = s.home.map (·.lot) := by
      rw [List.map_map]
      exact List.map_congr_left fun r _ => warm_lot r
    exact (congrArg List.Nodup lots).mpr distinct
  refine ⟨fun fits => ?_, fun distinct => (LotsKept.homeDistinct_congr requeued).2 (warmed distinct),
    fun distinct _ r member isEnded => ?_⟩
  · obtain ⟨inv, nothing⟩ := (lotsFit_iff s).1 fits
    have cleared : ∀ e ∈ List.replicate Config.entryCount LotEntry.cleared, e = LotEntry.cleared :=
      fun e he => List.eq_of_mem_replicate he
    refine (lotsFit_iff _).2 ⟨?_, fun out => ?_⟩
    · have answered := LotsKept.of_same (s := s.warmReset) (t := s.warmReset.answer (ok .nothing)) rfl rfl rfl rfl
      refine answered.inv (requeued.inv ⟨?_, fun r' hr' => ?_, fun e he => ?_⟩)
      · exact ((lotsFit_iff _).1 (lotsFit_of_cleared (s := { s with
          home := [], table := List.replicate Config.entryCount LotEntry.cleared }) rfl cleared)).1.names
      · obtain ⟨r, hr, rfl⟩ := List.mem_map.1 hr'
        exact warm_fits (inv.home r hr)
      · rw [cleared e he]
        exact entryFits_cleared _
    · have fault : s.station = .tariffFault := by
        by_contra differs
        have ready : s.warmReset.station = .ready := station.trans (if_neg differs)
        have out' : s.warmReset.inService = false := out
        rw [State.inService, ready] at out'
        cases out'
      have before := nothing (by rw [State.inService, fault]; rfl)
      have home : s.home.map HomeRecord.warm = [] := by rw [before.1]; rfl
      have reset : s.warmReset = { s with
          ring := Ring.cleared, table := List.replicate Config.entryCount LotEntry.cleared
          home := s.home.map HomeRecord.warm, line := s.line.warm, screen := s.defaultScreen
          station := if s.station = .tariffFault then .tariffFault else .ready } := by
        unfold State.warmReset
        simp only [home, List.map_nil, List.foldl_nil]
      show State.HoldsNothing s.warmReset
      rw [reset]
      exact ⟨home, cleared⟩
  · have warm : r.warm.state = .ended ∧ r.warm.figures = r.figures := by
      simp only [HomeRecord.warm, isEnded, and_self]
    obtain ⟨r', member', lot', state', figures'⟩ :=
      requeued.ended (warmed distinct) r.warm (List.mem_map_of_mem member) warm.1
    exact ⟨r', member', lot'.trans (warm_lot r), state', figures'.trans warm.2⟩

end RecordsKept

theorem exec_recordsKept {c : Instr} {s t : State} (h : exec c s = .next t) (notFull : c.isFullReset = false) :
    RecordsKept s t := by
  cases c with
  | configure r => cases h; exact .exchange s _ _ fun taken => .configureTaken s r (availability_configure taken)
  | submit r => cases h; exact .exchange s _ _ fun _ => .submitTaken s r
  | collect i => cases h; exact .exchange s _ _ fun _ => withSlot_induction s i _ (.setResponse s) fun _ => .collectSlot s i
  | peek i =>
    cases h
    exact .exchange s _ _ fun _ =>
      withSlot_induction s i (fun s => s.answer (ok (.slot (s.slotView i)))) (.setResponse s) fun _ => .setResponse s _
  | withdraw i => cases h; exact .exchange s _ _ fun _ => withSlot_induction s i _ (.setResponse s) fun _ => .withdrawSlot s i
  | status => cases h; exact .exchange s _ (fun s => s.answer (ok (.status s.statusView))) fun _ => .setResponse s _
  | clearSummary l => cases h; exact .exchange s _ _ fun _ => .clearTaken s l
  | lotView lot => cases h; exact .exchange s _ (fun s => s.answer (ok (.lot (s.lotView lot)))) fun _ => .setResponse s _
  | leave => cases h; exact .exchange s _ _ fun taken => .leaveTaken s (availability_leave taken)
  | resetWarm => cases h; exact .exchange s _ _ fun _ => .warmReset s
  | resetFull => cases notFull
  | unknownCommand f =>
    cases h
    cases f with
    | code n | length n m =>
      show RecordsKept s (if s.held then { s with response := none } else s.answer (badArg 1 0))
      split <;> exact .setResponse s _
    | resetArgument n => exact .exchange s _ (fun s => s.answer (badArg 4 0)) fun _ => .setResponse s _
  | commandDiscarded => cases h; exact .setResponse s none
  | powerOnReset => cases notFull
  | rstnRise => cases h; exact .of_same ⟨rfl, rfl⟩ rfl rfl rfl
  | loadCompletes f => cases h; exact .whenRunning s _ (.endLoad s f)
  | loadFaults f => cases h; exact .whenRunning s _ (.failLoad s f)
  | ratePositionActs => cases h; exact .whenRunning s _ (.ratePosition s)
  | watchdogExpires => cases h; exact .whenRunning s _ (.watchdogExpiry s)
  | clockAdvance => cases h; exact .whenRunning s _ (.advanceClock s)
  | fetchTimerExpires r =>
    cases h
    cases r with
    | home lot => exact .whenRunning s _ (.homeExpiry s lot)
    | entry i => exact .whenRunning s _ (.entryExpiry s i)
  | publishTimerExpires i => cases h; exact .whenRunning s _ (.publishExpiry s i)
  | faultTimerExpires => cases h; exact .whenRunning s _ (.of_lineStep (.faultExpiry s) (.faultExpiry s))
  | beaconTimerExpires => cases h; exact .whenRunning s _ (.of_lineStep (.beaconExpiry s) (.beaconExpiry s))
  | absenceTimerExpires n => cases h; exact .whenRunning s _ (.of_lineStep (.absenceExpiry s n) ⟨rfl, rfl⟩)
  | idleIntervalSeen => cases h; exact .whenRunning s _ (.of_lineStep (.seeIdle s) (.seeIdle s))
  | transmitStart => cases h; exact .whenRunning s _ (.of_lineStep (.startFrame s) (.startFrame s))
  | frameWinsLine => cases h; exact .whenRunning s _ (.of_lineStep (.winLine s) (.winLine s))
  | readbackFailure => cases h; exact .whenRunning s _ (.of_lineStep (.readbackFails s) (.readbackFails s))
  | readbackDuplicate => cases h; exact .whenRunning s _ (.of_lineStep (.readbackOther s) (.readbackOther s))
  | frameTruncated => cases h; exact .refl s
  | frameRejected r => cases h; exact .whenRunning s _ (.of_lineStep (.hearRejected s _) (.hearRejected s _))
  | handoverAccepted n b =>
    cases h
    refine .whenRunning s _ ?_
    unfold State.acceptHandover
    split
    · exact .of_lineStep (.hearRejected s _) (.hearRejected s _)
    · exact .acceptLotFrame s _ _ (fun s' => LotStep.onHandover s' n b _) fun s' => .onHandover s' n b _
  | reclaimAccepted n lot f =>
    cases h
    exact .whenRunning s _ (.acceptLotFrame s _ _ (fun s' => LotStep.onReclaim s' lot f _) fun s' => .onReclaim s' lot f _)
  | tallyAccepted n lot f =>
    cases h
    exact .whenRunning s _ (.acceptLotFrame s _ _ (fun s' => LotStep.onTally s' lot f) fun s' => .onTally s' lot f)
  | fetchAccepted n lot =>
    cases h
    exact .whenRunning s _ (.acceptLotFrame s _ _ (fun s' => LotStep.onFetch s' n lot _) fun s' => .onFetch s' n lot _)
  | stallAccepted n lot =>
    cases h
    exact .whenRunning s _ (.acceptLotFrame s _ _ (fun s' => LotStep.onStall s' lot) fun s' => .onStall s' lot)
  | noticeAccepted n lot f =>
    cases h
    exact .whenRunning s _
      (.acceptLotFrame s _ _ (fun s' => LotStep.onNotice s' lot f _ _) fun s' => .onNotice s' lot f _ _)
  | helloAccepted n e k =>
    cases h
    refine .whenRunning s (fun s => s.acceptHello ⟨n, .hello e k⟩ e) ?_
    unfold State.acceptHello
    split
    · exact .refl s
    · exact (RecordsKept.takeFrame s _).trans (LineStep.takeFrame s _).station
        (.of_lineStep (.onHello _ _ _) (.onHello _ _ _))
  | unknownKindFrameAccepted n bytes =>
    cases h
    refine .whenRunning s (fun s => if s.line.state = .off then s else s.takeFrame ⟨n, .unknown bytes⟩) ?_
    split
    · exact .refl s
    · exact .takeFrame s _
  | arbitrationLost => cases h; exact .whenRunning s _ (.of_lineStep (.loseArbitration s) (.loseArbitration s))

/-- Settles O13. -/
theorem endedRecordsStayEnded : Obligations.EndedRecordsStayEnded :=
  fun _ _ _ r distinct notLoading h notFull member isEnded =>
    (exec_recordsKept h notFull).ended distinct notLoading r member isEnded

/-- A ms passes for the timers alone. -/
theorem tick_lotsFit {s : State} (h : s.LotsFit) : s.tick.LotsFit := by
  obtain ⟨inv, nothing⟩ := (lotsFit_iff s).1 h
  refine (lotsFit_iff _).2 ⟨⟨?_, fun r' hr' => ?_, fun e' he' => ?_⟩, fun out => ⟨?_, fun e' he' => ?_⟩⟩
  · have names := inv.names
    simp only [State.tick, List.flatMap_map]
    exact names
  · obtain ⟨r, hr, rfl⟩ := List.mem_map.1 hr'
    exact inv.home r hr
  · obtain ⟨e, he, rfl⟩ := List.mem_map.1 he'
    exact inv.entries e he
  · show s.home.map _ = []
    rw [(nothing out).1]
    rfl
  · obtain ⟨e, he, rfl⟩ := List.mem_map.1 he'
    rw [(nothing out).2 e he]
    rfl

/-- Settles O8: each operation of the lot controller keeps the description of the records (`LotsKept`), each command what
the description says of the station state (`RecordsKept`), and so does every step. -/
theorem homeLotsStayDistinct : Obligations.HomeLotsStayDistinct := by
  refine ⟨fun s t hs h => ?_, fun s t hs h => ?_⟩
  · refine invariant_of_commands (P := State.HomeDistinct) (fun _ _ _ => List.nodup_nil) (fun _ _ _ => id) (fun s d => ?_)
      (fun _ _ _ h full => (exec_recordsKept h full).distinct) h hs
    simpa [State.HomeDistinct, State.tick, Function.comp_def] using d
  · exact invariant_of_commands (P := State.LotsFit)
      (fun _ _ _ => lotsFit_of_cleared rfl fun _ he => List.eq_of_mem_replicate he) (fun _ _ _ => id)
      (fun _ => tick_lotsFit) (fun _ _ _ h full => (exec_recordsKept h full).fits) h hs

end Sys2Proof.Machine
end

section
/-! Terminal commands and hall line frames, written in bytes and read back (R172, R182, R183, R186). -/

namespace Sys2Proof.Machine

/-! ### Reading fields one after the other -/

theorem field_toBytes_end (w n : Nat) (h : n < 256 ^ w) : field (toBytes w n) 0 w = n := by
  simpa using field_toBytes w n [] h

theorem field_byte (b : Byte) (bs : Bytes) : field (b :: bs) 0 1 = b.toNat := by
  simp [field, ofBytes]

theorem drop_append_left (as bs : Bytes) (off : Nat) (h : as.length ≤ off) :
    (as ++ bs).drop off = bs.drop (off - as.length) := by
  rw [List.drop_append, List.drop_eq_nil_of_le h, List.nil_append]

theorem take_append_exact (as bs : Bytes) (n : Nat) (h : as.length = n) : (as ++ bs).take n = as := by
  rw [← h, List.take_left]

theorem toNat_ofNat_map {ns : List Nat} (small : ∀ n ∈ ns, n < 256) : (ns.map (BitVec.ofNat 8)).map BitVec.toNat = ns := by
  rw [List.map_map]
  refine (List.map_congr_left fun n hn => ?_).trans (List.map_id ns)
  exact (BitVec.toNat_ofNat n 8).trans (Nat.mod_eq_of_lt (small n hn))

/-! ### Command frames (R182, R183) -/

/-- A frame is read as its code's command from its arguments, whatever follows in the select period (R172). -/
theorem decodeCommand_frame {code : Nat} {args : Bytes} (small : code < 256) (short : args.length < 65536) (rest : Bytes) :
    decodeCommand (commandFrame code args ++ rest) = decodeArguments code args.length args := by
  have codeField : field (commandFrame code args ++ rest) 0 1 = code := by
    rw [commandFrame, List.append_assoc, List.append_assoc]
    exact field_toBytes 1 code _ small
  have lengthField : field (commandFrame code args ++ rest) 1 2 = args.length := by
    rw [commandFrame, List.append_assoc, List.append_assoc, field_append_left _ _ _ _ (by simp)]
    simpa using field_toBytes 2 args.length (args ++ rest) short
  have arguments : ((commandFrame code args ++ rest).drop 3).take args.length = args := by
    rw [commandFrame, List.append_assoc, drop_append_left _ _ _ (by simp)]
    simp
  rw [decodeCommand, codeField, lengthField, arguments, if_neg]
  simp [commandFrame]
  omega

theorem readConfig_configBytes {r : ConfigRecord} (h : r.wf) : readConfig (configBytes r) = r := by
  obtain ⟨count, number, day, time, sequence, letters, edition, opening, fetch, publish, watchdog⟩ := h
  rw [readConfig, configBytes]
  simp only [List.append_assoc]
  simp (disch := simp [letters]) only [field_append_left, drop_append_left, toBytes_length, letters]
  simp (disch := omega) only [Nat.reduceSub, Nat.sub_zero, field_toBytes]
  simp [letters, field_byte]

theorem length_configBytes {r : ConfigRecord} (h : r.wf) : (configBytes r).length = 21 := by
  obtain ⟨-, -, -, -, -, letters, -⟩ := h
  simp [configBytes, letters]

theorem readParcel_parcelBytes {r : ParcelRecord} (h : r.wf) : readParcel (parcelBytes r) = r := by
  obtain ⟨tag, service, weight, length, width, height, destination, value, mark⟩ := h
  have options (bs : Bytes) : toBytes 2 r.terminalTag ++ (toBytes 1 r.service ++ (r.options :: bs)) =
      toBytes 2 r.terminalTag ++ (toBytes 1 r.service ++ ([r.options] ++ bs)) := rfl
  rw [readParcel, parcelBytes]
  simp only [List.append_assoc]
  simp (disch := simp [destination]) only [field_append_left, drop_append_left, toBytes_length, destination,
    List.length_singleton]
  simp (disch := omega) only [Nat.reduceSub, Nat.sub_zero, field_toBytes, field_toBytes_end]
  simp [destination, field_byte]

theorem length_parcelBytes {r : ParcelRecord} (h : r.wf) : (parcelBytes r).length = 25 := by
  obtain ⟨-, -, -, -, -, -, destination, -⟩ := h
  simp [parcelBytes, destination]

/-! ### Screen records -/

theorem length_entryBytes {es : List ScreenEntry} (h : ∀ e ∈ es, e.wf) : (entryBytes es).length = 7 * es.length := by
  induction es with
  | nil => rfl
  | cons e es ih =>
    have tail := ih fun x hx => h x (List.mem_cons_of_mem _ hx)
    have characters := (h e List.mem_cons_self).2
    rw [entryBytes, List.flatMap_cons, ← entryBytes]
    simp [tail, characters]
    omega

theorem readEntries_entryBytes {es : List ScreenEntry} (h : ∀ e ∈ es, e.wf) (rest : Bytes) :
    readEntries es.length (entryBytes es ++ rest) = es := by
  induction es with
  | nil => rfl
  | cons e es ih =>
    obtain ⟨length, characters⟩ := h e List.mem_cons_self
    have tail := ih fun x hx => h x (List.mem_cons_of_mem _ hx)
    have bytes : entryBytes (e :: es) ++ rest = toBytes 1 e.length ++ (e.characters ++ (entryBytes es ++ rest)) := by
      simp [entryBytes]
    have first : (toBytes 1 e.length ++ (e.characters ++ (entryBytes es ++ rest))).drop 1 =
        e.characters ++ (entryBytes es ++ rest) := List.drop_left' (by simp)
    have later : (toBytes 1 e.length ++ (e.characters ++ (entryBytes es ++ rest))).drop 7 = entryBytes es ++ rest := by
      rw [← List.append_assoc]
      exact List.drop_left' (by simp [characters])
    rw [List.length_cons, readEntries, bytes, first, later, tail, take_append_exact _ _ _ characters,
      field_toBytes 1 _ _ length]

theorem length_tableBytes (w n : Nat) : (tableBytes w n).length = w := by
  induction w generalizing n with
  | zero => rfl
  | succ w ih => simp [tableBytes, ih]

theorem tableOfBytes_tableBytes (w n : Nat) (h : n < 256 ^ w) : tableOfBytes (tableBytes w n) = n := by
  induction w generalizing n with
  | zero =>
    obtain rfl : n = 0 := by simpa using h
    rfl
  | succ w ih =>
    rw [tableBytes, tableOfBytes, ih _ (by rw [Nat.pow_succ] at h; omega), BitVec.toNat_ofNat]
    omega

theorem readScreen_screenBytes {r : ScreenRecord} (h : r.wf) : readScreen (screenBytes r) = r := by
  obtain ⟨tag, kind, inverse, count, sixteen, entries⟩ := h
  have length : (entryBytes r.body.entries).length = 112 := by rw [length_entryBytes entries, sixteen]
  have table : BitVec.ofNat 512 (tableOfBytes (tableBytes 64 r.body.hashTable.toNat)) = r.body.hashTable := by
    have bits : r.body.hashTable.toNat < 256 ^ 64 := r.body.hashTable.isLt.trans_eq (Nat.pow_mul 2 8 64)
    rw [tableOfBytes_tableBytes 64 _ bits, BitVec.ofNat_toNat, BitVec.setWidth_eq]
  have read := readEntries_entryBytes entries (tableBytes 64 r.body.hashTable.toNat)
  rw [sixteen] at read
  rw [readScreen, readScreenBody, screenBytes, screenBodyBytes]
  simp only [List.append_assoc]
  simp (disch := simp [length]) only [field_append_left, drop_append_left, toBytes_length, length, Nat.reduceSub,
    List.drop_zero]
  simp (disch := omega) only [Nat.sub_self, field_toBytes]
  rw [List.take_of_length_le (by simp [length_tableBytes]), table, read]

theorem length_screenBytes {r : ScreenRecord} (h : r.wf) : (screenBytes r).length = 181 := by
  obtain ⟨-, -, -, -, sixteen, entries⟩ := h
  simp [screenBytes, screenBodyBytes, length_entryBytes entries, sixteen, length_tableBytes]

/-! ### The round trip of a terminal command -/

theorem decode_submit_parcel {r : ParcelRecord} (h : r.wf) :
    decodeArguments 2 26 (toBytes 1 0 ++ parcelBytes r) = .submit (.parcel r) := by
  have kind := field_toBytes 1 0 (parcelBytes r) (by omega)
  simp only [decodeArguments, decodeSubmit, kind]
  simp [readParcel_parcelBytes h]

theorem decode_submit_screen {r : ScreenRecord} (h : r.wf) :
    decodeArguments 2 182 (toBytes 1 1 ++ screenBytes r) = .submit (.screen r) := by
  have kind := field_toBytes 1 1 (screenBytes r) (by omega)
  simp only [decodeArguments, decodeSubmit, kind]
  simp [readScreen_screenBytes h]

theorem decode_submit_unknown {k : Nat} (small : k < 256) (unknown : 2 ≤ k) :
    decodeArguments 2 1 (toBytes 1 k) = .submit (.unknownKind k) := by
  have kind := field_toBytes_end 1 k small
  simp only [decodeArguments, decodeSubmit, kind]
  match k, unknown with
  | k + 2, _ => rfl

theorem decode_clear {f : FlagList} (h : f.wf) :
    decodeArguments 7 (1 + f.codes.length) (toBytes 1 f.count ++ f.codes.map (BitVec.ofNat 8)) = .clearSummary f := by
  obtain ⟨small, codes, each⟩ := h
  have count := field_toBytes 1 f.count (f.codes.map (BitVec.ofNat 8)) small
  have arguments : (toBytes 1 f.count ++ f.codes.map (BitVec.ofNat 8)).drop 1 = f.codes.map (BitVec.ofNat 8) := by
    rw [drop_append_left _ _ _ (by simp)]
    simp
  simp only [decodeArguments, decodeClear, count, arguments, toNat_ofNat_map each]
  by_cases few : f.count ≤ 16
  · rw [if_pos few] at codes
    rw [if_neg (by omega), if_neg (by omega), if_pos (by omega)]
  · rw [if_neg few] at codes
    rw [if_neg (by omega), if_pos (by omega), ← codes]

theorem field_zeros (n : Nat) : field (List.replicate n 0) 0 1 = 0 := by
  cases n <;> simp [field, ofBytes, List.replicate_succ]

/-- Arguments of a length that the code does not take. -/
theorem decode_misfit {c n : Nat} (low : 1 ≤ c) (high : c ≤ 10) (misfit : argumentLengthFits c n = false ∨ c = 2 ∨ c = 7) :
    decodeArguments c n (misfitArguments c n) = .unknownCommand (.length c n) := by
  have fixed {c n m : Nat} {i : Instr} (h : n ≠ m) : ofLength c n m i = .unknownCommand (.length c n) := if_neg h
  have length (c : Nat) (h : argumentLengthFits c n = false ∨ c = 2 ∨ c = 7) (not2 : c ≠ 2) (not7 : c ≠ 7) :
      argumentLengthFits c n = false := by simpa [not2, not7] using h
  match c, low, high with
  | 2, _, _ =>
    simp only [decodeArguments, decodeSubmit]
    by_cases none : n = 0
    · rw [if_pos none]
    · rw [if_neg none]
      by_cases parcel : n = 26
      · subst parcel
        rfl
      · have kind : field (misfitArguments 2 n) 0 1 = 0 := by
          unfold misfitArguments
          split
          · omega
          · omega
          · exact field_zeros _
        simp only [kind, if_neg parcel]
  | 7, _, _ =>
    simp only [decodeArguments, decodeClear]
    by_cases none : n = 0
    · rw [if_pos none]
    · rw [if_neg none]
      by_cases one : n = 1
      · subst one
        rfl
      · have kind : field (misfitArguments 7 n) 0 1 = 0 := by
          unfold misfitArguments
          split
          · omega
          · omega
          · exact field_zeros _
        simp [kind, one]
  | 1, _, _ | 3, _, _ | 4, _, _ | 5, _, _ | 6, _, _ | 8, _, _ | 9, _, _ | 10, _, _ =>
    have misfit := length _ misfit (by omega) (by omega)
    exact fixed (by simpa [argumentLengthFits] using misfit)

/-- Settles O15: each command's frame is read by its code, and its arguments field by field. -/
theorem portCommandsRoundTrip : Obligations.PortCommandsRoundTrip := by
  intro i rest terminal wf notDiscarded
  have frame {code : Nat} {args : Bytes} {n : Nat} {i : Instr} (length : args.length = n)
      (decodes : decodeArguments code n args = i) (small : code < 256 := by omega) (short : n < 65536 := by omega) :
      decodeCommand (commandFrame code args ++ rest) = i := by
    rw [decodeCommand_frame small (length ▸ short), length, decodes]
  have byte (code : Nat) {k : Nat} (fits : k < 256) (small : code < 256) {i : Instr}
      (decodes : ∀ args, field args 0 1 = k → decodeArguments code 1 args = i) :
      decodeCommand (commandFrame code (toBytes 1 k) ++ rest) = i :=
    frame (by simp) (decodes _ (field_toBytes_end 1 k fits)) small
  cases i with
  | configure r =>
    refine frame (n := 21) (length_configBytes wf) ?_
    simp [decodeArguments, ofLength, readConfig_configBytes wf]
  | submit r =>
    cases r with
    | parcel r => exact frame (n := 26) (by simp [length_parcelBytes wf]) (decode_submit_parcel wf)
    | screen r => exact frame (n := 182) (by simp [length_screenBytes wf]) (decode_submit_screen wf)
    | unknownKind k => exact frame (n := 1) (by simp) (decode_submit_unknown wf.1 wf.2)
  | collect k => exact byte 3 wf (by omega) fun args e => by simp [decodeArguments, ofLength, e]
  | peek k => exact byte 4 wf (by omega) fun args e => by simp [decodeArguments, ofLength, e]
  | withdraw k => exact byte 5 wf (by omega) fun args e => by simp [decodeArguments, ofLength, e]
  | status => exact frame (n := 0) rfl rfl
  | clearSummary f =>
    have few : f.codes.length ≤ 16 := by
      have codes := wf.2.1
      split at codes
      · omega
      · simp [codes]
    exact frame (n := 1 + f.codes.length) (by simp [Nat.add_comm]) (decode_clear wf)
  | lotView l =>
    refine frame (n := 2) (by simp) ?_
    have read := field_toBytes_end 2 l wf
    simp [decodeArguments, ofLength, read]
  | leave => exact frame (n := 0) rfl rfl
  | resetWarm => exact frame (n := 1) rfl rfl
  | resetFull => exact frame (n := 1) rfl rfl
  | unknownCommand f =>
    cases f with
    | code c =>
      obtain ⟨small, unknown⟩ := wf
      refine frame (n := 0) rfl ?_ small
      match c, unknown with
      | 0, _ => rfl
      | c + 11, _ => rfl
    | length c n =>
      obtain ⟨low, high, short, misfit⟩ := wf
      have length : (misfitArguments c n).length = n := by
        unfold misfitArguments
        split <;> simp
      exact frame length (decode_misfit low high misfit) (by omega) short
    | resetArgument a =>
      obtain ⟨small, notWarm, notFull⟩ := wf
      refine byte 10 small (by omega) fun args e => ?_
      simp only [decodeArguments, ofLength, e, if_true, decodeReset]
  | commandDiscarded => exact absurd rfl notDiscarded
  | _ => cases terminal

/-! ### Hall line frames (R148, R152, R186) -/

theorem length_figureBytes (f : Figures) : (figureBytes f).length = 10 := by simp [figureBytes]

theorem readFigures_figureBytes {f : Figures} (h : f.wf) (rest : Bytes) : readFigures (figureBytes f ++ rest) = f := by
  obtain ⟨weight, litres, pieces⟩ := h
  rw [readFigures, figureBytes]
  simp only [List.append_assoc]
  simp (disch := simp) only [field_append_left, toBytes_length, Nat.reduceSub]
  simp (disch := omega) only [field_toBytes]

theorem readFigures_end {f : Figures} (h : f.wf) : readFigures (figureBytes f) = f := by
  simpa using readFigures_figureBytes h []

/-- A lot and its figures, the body of RECLAIM, TALLY and NOTICE. -/
theorem read_lotFigures {lot : Nat} {f : Figures} (small : lot < 65536) (h : f.wf) :
    field (toBytes 2 lot ++ figureBytes f) 0 2 = lot ∧ readFigures ((toBytes 2 lot ++ figureBytes f).drop 2) = f := by
  refine ⟨field_toBytes 2 lot _ small, ?_⟩
  rw [List.drop_left' (by simp)]
  exact readFigures_end h

theorem read_handover {b : HandoverBody} (h : b.wf) : readBody 0 (bodyBytes (.handover b)) = .handover b := by
  obtain ⟨recipient, lot, figures, reclaimed, short, queue⟩ := h
  have tens := length_figureBytes b.figures
  have read := readFigures_figureBytes figures
    (toBytes 1 b.reclaimed ++ (toBytes 1 b.queue.length ++ b.queue.map (BitVec.ofNat 8)))
  rw [readBody, bodyBytes]
  simp only [List.append_assoc]
  simp (disch := simp [tens]) only [field_append_left, drop_append_left, toBytes_length, tens, Nat.reduceSub,
    List.drop_zero]
  simp (disch := omega) only [field_toBytes]
  rw [read, toNat_ofNat_map queue]

theorem readBody_bodyBytes {b : FrameBody} (h : b.wf) : readBody (bodyKind b) (bodyBytes b) = b := by
  cases b with
  | handover b => exact read_handover h
  | reclaim lot f | tally lot f | notice lot f =>
    obtain ⟨readLot, readFigures⟩ := read_lotFigures h.1 h.2
    simp only [readBody, bodyKind, bodyBytes, readLot, readFigures]
  | fetch lot | stall lot =>
    have read := field_toBytes_end 2 lot h
    simp only [readBody, bodyKind, bodyBytes, read]
  | hello e n =>
    have edition := field_toBytes 2 e (toBytes 4 n.toNat) h
    have serial := field_toBytes_end 4 n.toNat n.isLt
    simp (disch := simp) only [readBody, bodyKind, bodyBytes, edition, field_append_left, toBytes_length, Nat.reduceSub,
      serial, BitVec.ofNat_toNat, BitVec.setWidth_eq]
  | unknown c => rfl

/-- The count byte agrees with the kind, and with the queue count (R152). -/
theorem countAgrees_bodyBytes {b : FrameBody} (h : b.wf) :
    countAgrees (bodyKind b) (bodyBytes b) = true ∧ (bodyBytes b).length < 256 := by
  cases b with
  | handover b =>
    obtain ⟨-, -, -, -, short, -⟩ := h
    have tens := length_figureBytes b.figures
    have length : (bodyBytes (.handover b)).length = 15 + b.queue.length := by
      simp [bodyBytes, tens]
      omega
    have count : field (bodyBytes (.handover b)) 14 1 = b.queue.length := by
      rw [bodyBytes]
      simp only [List.append_assoc]
      simp (disch := simp [tens]) only [field_append_left, toBytes_length, tens, Nat.reduceSub]
      exact field_toBytes 1 _ _ (by omega)
    refine ⟨?_, by omega⟩
    simp only [countAgrees, bodyKind, length, count, Bool.and_eq_true, decide_eq_true_eq, beq_self_eq_true, and_true]
    omega
  | reclaim lot f | tally lot f | notice lot f => simp [countAgrees, bodyKind, bodyBytes, length_figureBytes]
  | fetch lot | stall lot | hello e n => simp [countAgrees, bodyKind, bodyBytes]
  | unknown c => exact ⟨rfl, h⟩

theorem bodyKind_lt (b : FrameBody) : bodyKind b < 8 := by cases b <;> simp [bodyKind]

/-- Settles O16: the CRC, the count byte and the body of a frame's own bytes. -/
theorem hallFramesRoundTrip : Obligations.HallFramesRoundTrip := by
  rintro ⟨sender, body⟩ ⟨smallSender, wf⟩
  have smallSender : sender < 32 := smallSender
  obtain ⟨agrees, short⟩ := countAgrees_bodyBytes wf
  have kind := bodyKind_lt body
  have header : (headerByte ⟨sender, body⟩).toNat = bodyKind body * 32 + sender := by
    rw [headerByte, BitVec.toNat_ofNat]
    show (bodyKind body * 32 + sender % 32) % 256 = _
    omega
  have bytes : frameBytes ⟨sender, body⟩ = headerByte ⟨sender, body⟩ :: BitVec.ofNat 8 (bodyBytes body).length ::
      (bodyBytes body ++ toBytes 2 (crc16 (coveredBytes ⟨sender, body⟩)).toNat) := rfl
  have length : (frameBytes ⟨sender, body⟩).length = (bodyBytes body).length + 4 := by simp [bytes]
  have covered : (coveredBytes ⟨sender, body⟩).length = (bodyBytes body).length + 2 := by simp [coveredBytes]
  have head : (frameBytes ⟨sender, body⟩).headD 0 = headerByte ⟨sender, body⟩ := rfl
  have content : bodyOf (frameBytes ⟨sender, body⟩) = bodyBytes body := by
    rw [bodyOf, length, bytes]
    exact take_append_exact _ _ _ (by simp)
  have crc : (frameBytes ⟨sender, body⟩).take ((frameBytes ⟨sender, body⟩).length - 2) = coveredBytes ⟨sender, body⟩ ∧
      (frameBytes ⟨sender, body⟩).drop ((frameBytes ⟨sender, body⟩).length - 2) =
        toBytes 2 (crc16 (coveredBytes ⟨sender, body⟩)).toNat := by
    rw [length, frameBytes]
    exact ⟨List.take_left' (by omega), List.drop_left' (by omega)⟩
  have count : field (frameBytes ⟨sender, body⟩) 1 1 = (bodyBytes body).length := by
    have second (a c : Byte) (rest : Bytes) : field (a :: c :: rest) 1 1 = c.toNat := by simp [field, ofBytes]
    rw [bytes, second, BitVec.toNat_ofNat, Nat.mod_eq_of_lt short]
  have kindRead : kindOfHeader (headerByte ⟨sender, body⟩) = bodyKind body := by
    rw [kindOfHeader, header]
    omega
  have good : faulty ⟨frameBytes ⟨sender, body⟩, true⟩ = false := by
    have sum : BitVec.ofNat 16 (ofBytes (toBytes 2 (crc16 (coveredBytes ⟨sender, body⟩)).toNat)) =
        crc16 (coveredBytes ⟨sender, body⟩) := by
      rw [ofBytes_toBytes_of_lt (crc16 _).isLt, BitVec.ofNat_toNat, BitVec.setWidth_eq]
    rw [faulty]
    dsimp only
    rw [crc.1, crc.2, sum, count, content, head, kindRead, agrees, length]
    simp
  rw [decodeFrame, good, head, kindRead, content, readBody_bodyBytes wf, header]
  have number : (bodyKind body * 32 + sender) % 32 = sender := by omega
  simp [number]

end Sys2Proof.Machine
end

section
/-! The rating of one record (R3 to R22). -/

namespace Sys2Proof.Machine

/-! ### Rounding and the money limit -/

/-- No mode rounds past a whole number that the exact quotient does not exceed. -/
theorem roundBy_le {m : RoundingMode} {n q k : Nat} (hq : 0 < q) (h : n ≤ k * q) : roundBy m n q ≤ k := by
  by_cases even : n % q = 0
  · have exact : roundBy m n q * q = n := (roundingByMode n q hq).2.2.2.2.2 m even
    exact Nat.le_of_mul_le_mul_right (exact.trans_le h) hq
  · have below : n < k * q := h.lt_of_ne fun e => even (e ▸ Nat.mul_mod_left k q)
    have quotient : n / q < k := (Nat.div_lt_iff_lt_mul hq).2 below
    unfold roundBy
    split <;> omega

theorem roundDirection_eq (m : RoundingMode) (n q : Nat) :
    roundDirection m n q = if n % q = 0 then .exactly else if roundBy m n q = n / q + 1 then .up else .down := by
  unfold roundDirection roundBy
  by_cases up : roundsUp m n q = true <;> simp [up]

theorem dropsRemainder_iff (n q : Nat) : dropsRemainder n q = true ↔ n % q ≠ 0 := bne_iff_ne

theorem overLimit_iff (v : Nat) : overLimit v = true ↔ ¬ v ≤ 999999900 := by
  rw [overLimit, decide_eq_true_eq]
  exact not_le.symm

theorem overLimit_eq_false_iff (v : Nat) : overLimit v = false ↔ v ≤ 999999900 := by
  rw [overLimit, decide_eq_false_iff_not]
  exact not_lt

theorem saturate_of_le {v : Nat} (h : v ≤ 999999900) : saturate v = v := min_eq_left h

theorem fuelBase_eq (b : Nat) : fuelBase b = if b * 100 ≤ 999999900 then b else 9999999 := by
  simp only [fuelBase, overLimit_iff, ite_not]
  rfl

theorem fuelBase_of_le {b : Nat} (h : b * 100 ≤ 999999900) : fuelBase b = b := by rw [fuelBase_eq, if_pos h]

/-! ### Checks and the base charge -/

theorem validParcel_iff (t : Tariff) (p : ParcelRecord) : validParcel t p = true ↔
    (1 ≤ p.weight ∧ p.weight ≤ 70000) ∧ (∀ x ∈ [p.length, p.width, p.height], 1 ≤ x ∧ x ≤ 2000) ∧
      p.declaredValue ≤ 5000000 ∧ p.pieceMark ≤ 3 ∧ girth p ≤ 4000 ∧
      (p.destination.length = 6 ∧ ∀ b ∈ p.destination, 0x30 ≤ b.toNat ∧ b.toNat ≤ 0x39) ∧
      ∃ e, serviceRow t p.service = some e ∧ (p.declaredValue = 0 ∨ e.insuranceAllowed = true) := by
  unfold validParcel
  cases serviceRow t p.service <;> simp [isDigit, and_assoc]

theorem baseCharge_of_charges {e : RateSection} {zone w cents : Nat} (h : e.Charges zone w cents) :
    baseCharge e zone w = cents := by
  unfold baseCharge
  obtain ⟨k, b, atK, within, before, rfl⟩ | ⟨top, last, above, rfl⟩ := h
  · have first : bandOf e w = some b := by
      obtain ⟨hk, rfl⟩ := List.getElem?_eq_some_iff.1 atK
      refine List.find?_eq_some_iff_getElem.2 ⟨by simpa using within, k, hk, rfl, fun j hj => ?_⟩
      have outside := before j e.bands[j] hj (List.getElem?_eq_getElem _)
      simpa using outside
    rw [first]
  · have none : bandOf e w = none := List.find?_eq_none.2 fun b hb => by simpa using above b hb
    rw [none, last]
    rfl

theorem fixedSurcharges_eq (r : RateSection) (p : ParcelRecord) (remote restricted : Bool) :
    fixedSurcharges r p remote restricted =
      100 * ((if 1200 < longestSide p ∨ 3000 < girth p then r.surcharges.oversize else 0) +
        (if remote = true then r.surcharges.remote else 0) +
        (if p.options.getLsbD 0 = true then r.surcharges.signature else 0) +
        (if p.options.getLsbD 1 = true then r.surcharges.saturday else 0) +
        (if p.options.getLsbD 2 = true then r.surcharges.fragile else 0) +
        (if restricted = true then r.surcharges.restricted else 0)) := by
  rw [fixedSurcharges, Nat.mul_comm]
  simp only [oversize, Bool.or_eq_true, decide_eq_true_eq]

/-! ### The stages with no value cut to the limit -/

/-- The values of stages C to J as they come, none cut to the money limit. -/
structure Stages where
  base     : Nat
  fuel     : Nat
  fixed    : Nat
  premium  : Nat
  sum      : Nat
  discount : Nat
  tax      : Nat
  total    : Nat

/-- Stages D to J from a base charge in cents. -/
def stages (t : Tariff) (r : RateSection) (remote restricted : Bool) (n : Option Nat) (p : ParcelRecord) (cents : Nat) :
    Stages :=
  let fuel := roundBy t.mode (cents * r.fuel) 100
  let fixed := fixedSurcharges r p remote restricted
  let sum := cents * 100 + fuel + fixed + premium t.mode r p
  let discount := roundBy t.mode (sum * discountRate t n) 10000
  let tax := roundBy t.mode ((sum - discount) * r.tax) 10000
  ⟨cents * 100, fuel, fixed, premium t.mode r p, sum, discount, tax, sum - discount + tax⟩

/-- The checks of R17 all pass. -/
def Stages.Within (g : Stages) : Prop := ∀ v ∈ [g.base, g.fuel, g.fixed, g.premium, g.sum, g.total], v ≤ 999999900

section
variable {t : Tariff} {r : RateSection} {zone : Nat} {remote restricted : Bool} {n : Option Nat} {p : ParcelRecord}
  {cents : Nat} (charge : baseCharge r zone (chargeableWeight r p) = cents)

theorem workings_overFixed : (workings t r zone remote restricted n p).overFixed =
    overLimit (stages t r remote restricted n p cents).fixed := rfl

theorem workings_overPremium : (workings t r zone remote restricted n p).overPremium =
    overLimit (stages t r remote restricted n p cents).premium := rfl

include charge

theorem workings_overBase : (workings t r zone remote restricted n p).overBase =
    overLimit (stages t r remote restricted n p cents).base := by
  subst charge; rfl

/-- With the base within the limit the fuel is its own percentage. -/
theorem workings_fuel (base : cents * 100 ≤ 999999900) :
    (workings t r zone remote restricted n p).overFuel = overLimit (stages t r remote restricted n p cents).fuel ∧
    (workings t r zone remote restricted n p).inexactFuel = dropsRemainder (cents * r.fuel) 100 := by
  simp only [workings, charge, fuelBase_of_le base, stages, and_self]

/-- With the four parts within the limit the subtotal is their sum. -/
theorem workings_sum (base : cents * 100 ≤ 999999900)
    (fuel : (stages t r remote restricted n p cents).fuel ≤ 999999900)
    (fixed : (stages t r remote restricted n p cents).fixed ≤ 999999900)
    (premium : (stages t r remote restricted n p cents).premium ≤ 999999900) :
    (workings t r zone remote restricted n p).overSubtotal = overLimit (stages t r remote restricted n p cents).sum := by
  simp only [stages] at fuel fixed premium
  simp only [workings, charge, fuelBase_of_le base, saturate_of_le base, saturate_of_le fuel, saturate_of_le fixed,
    saturate_of_le premium, stages]

/-- With the subtotal within the limit every value is as it comes. -/
theorem workings_eq (base : cents * 100 ≤ 999999900)
    (fuel : (stages t r remote restricted n p cents).fuel ≤ 999999900)
    (fixed : (stages t r remote restricted n p cents).fixed ≤ 999999900)
    (premium : (stages t r remote restricted n p cents).premium ≤ 999999900)
    (sum : (stages t r remote restricted n p cents).sum ≤ 999999900) :
    let g := stages t r remote restricted n p cents
    workings t r zone remote restricted n p =
      { base := g.base, fuel := g.fuel, fixed := g.fixed, premium := g.premium, subtotal := g.sum
        discount := g.discount, tax := g.tax, total := g.total
        overBase := false, overFuel := false, overFixed := false, overPremium := false, overSubtotal := false
        overTotal := overLimit g.total
        inexactFuel := dropsRemainder (cents * r.fuel) 100
        inexactPremium := r.freeThreshold < p.declaredValue && dropsRemainder (premiumNumerator r p) 100
        inexactDiscount := dropsRemainder (g.sum * discountRate t n) 10000
        inexactTax := dropsRemainder ((g.sum - g.discount) * r.tax) 10000 } := by
  simp only [stages] at fuel fixed premium sum
  simp only [workings, charge, stages, fuelBase_of_le base, saturate_of_le base, saturate_of_le fuel,
    saturate_of_le fixed, saturate_of_le premium, saturate_of_le sum, (overLimit_eq_false_iff _).2 base,
    (overLimit_eq_false_iff _).2 fuel, (overLimit_eq_false_iff _).2 fixed, (overLimit_eq_false_iff _).2 premium,
    (overLimit_eq_false_iff _).2 sum]

/-- The checks made on the values in use find a failure just when one of the values as they come is above the limit: the
first such value is in use as it comes. -/
theorem workings_overflows_iff : (workings t r zone remote restricted n p).overflows = true ↔
    ¬ (stages t r remote restricted n p cents).Within := by
  simp only [Workings.overflows, Bool.or_eq_true, Stages.Within, List.forall_mem_cons, List.not_mem_nil, false_imp_iff,
    implies_true, and_true]
  rw [workings_overBase charge, workings_overFixed (cents := cents), workings_overPremium (cents := cents)]
  simp only [overLimit_iff]
  by_cases base : (stages t r remote restricted n p cents).base ≤ 999999900
  · rw [(workings_fuel charge base).1, overLimit_iff]
    by_cases parts : (stages t r remote restricted n p cents).fuel ≤ 999999900 ∧
        (stages t r remote restricted n p cents).fixed ≤ 999999900 ∧
        (stages t r remote restricted n p cents).premium ≤ 999999900
    · obtain ⟨fuel, fixed, premium⟩ := parts
      rw [workings_sum charge base fuel fixed premium, overLimit_iff]
      by_cases sum : (stages t r remote restricted n p cents).sum ≤ 999999900
      · rw [workings_eq charge base fuel fixed premium sum, overLimit_iff]
        simp only [base, fuel, fixed, premium, sum]
        tauto
      · tauto
    · tauto
  · tauto

/-- The roundings counted of a record refused Overflow, by the first value above the limit (R18; log entry 23). -/
theorem inexactBeforeFailure_iff :
    let g := stages t r remote restricted n p cents
    (workings t r zone remote restricted n p).inexactBeforeFailure = true ↔
      (g.base ≤ 999999900 ∧ cents * r.fuel % 100 ≠ 0) ∨
      ((∀ v ∈ [g.base, g.fuel, g.fixed], v ≤ 999999900) ∧ r.freeThreshold < p.declaredValue ∧
        premiumNumerator r p % 100 ≠ 0) ∨
      ((∀ v ∈ [g.base, g.fuel, g.fixed, g.premium, g.sum], v ≤ 999999900) ∧
        (g.sum * discountRate t n % 10000 ≠ 0 ∨ (g.sum - g.discount) * r.tax % 10000 ≠ 0)) := by
  intro g
  simp only [Workings.inexactBeforeFailure, List.forall_mem_cons, List.not_mem_nil, false_imp_iff, implies_true, and_true]
  rw [workings_overBase charge, workings_overFixed (cents := cents), workings_overPremium (cents := cents)]
  have premiumRounded : (workings t r zone remote restricted n p).inexactPremium = true ↔
      r.freeThreshold < p.declaredValue ∧ premiumNumerator r p % 100 ≠ 0 := by
    simp [workings, dropsRemainder]
  by_cases base : g.base ≤ 999999900
  · rw [(workings_fuel charge base).1, (workings_fuel charge base).2, (overLimit_eq_false_iff _).2 base]
    by_cases early : g.fuel ≤ 999999900 ∧ g.fixed ≤ 999999900
    · obtain ⟨fuel, fixed⟩ := early
      rw [(overLimit_eq_false_iff _).2 fuel, (overLimit_eq_false_iff _).2 fixed]
      by_cases late : g.premium ≤ 999999900 ∧ g.sum ≤ 999999900
      · obtain ⟨premium, sum⟩ := late
        have rest := workings_eq charge base fuel fixed premium sum
        rw [workings_sum charge base fuel fixed premium, (overLimit_eq_false_iff _).2 premium,
          (overLimit_eq_false_iff _).2 sum]
        simp only [Bool.false_eq_true, if_false, Bool.or_false, Bool.or_eq_true, premiumRounded]
        rw [rest]
        simp only [dropsRemainder_iff, g, base, fuel, fixed, premium, sum, true_and]
        simp only [g] at base fuel fixed premium sum
        tauto
      · have fails : (overLimit g.premium || (workings t r zone remote restricted n p).overSubtotal) = true := by
          by_cases premium : g.premium ≤ 999999900
          · rw [workings_sum charge base fuel fixed premium, Bool.or_eq_true, overLimit_iff, overLimit_iff]
            exact .inr fun sum => late ⟨premium, sum⟩
          · rw [(overLimit_iff _).2 premium, Bool.true_or]
        simp only [g] at fails
        simp only [Bool.false_eq_true, if_false, Bool.or_false, fails, if_true, Bool.or_eq_true, premiumRounded,
          dropsRemainder_iff]
        tauto
    · have fails : (overLimit g.fuel || overLimit g.fixed) = true := by
        rw [Bool.or_eq_true, overLimit_iff, overLimit_iff]
        tauto
      simp only [g] at fails
      simp only [Bool.false_eq_true, if_false, fails, if_true, dropsRemainder_iff]
      tauto
  · rw [(overLimit_iff _).2 base]
    simp only [if_true, Bool.false_eq_true, false_iff]
    tauto

end

/-! ### The rating of a record, check by check -/

section
variable {t : Tariff} {sc : Screen} {masks : RatingMasks} {n : Option Nat} {p : ParcelRecord}

theorem rateRecord_invalid (invalid : validParcel t p = false) :
    rateRecord t sc masks n p = (RatingResult.refused .invalid, [.invalid]) := by
  simp [rateRecord, invalid]

theorem rateRecord_noService (valid : validParcel t p = true) (zone : (zoneEntry t p).zone = none) :
    rateRecord t sc masks n p = ({ RatingResult.refused .noService with zone := none }, [.noService]) := by
  simp [rateRecord, valid, zone]

theorem rateRecord_restricted {zone : Nat} {e : RateSection} (valid : validParcel t p = true)
    (served : (zoneEntry t p).zone = some zone) (service : serviceRow t p.service = some e)
    (restricted : sc.restricts p.destination = true) (unmasked : masks.restricted = false) :
    rateRecord t sc masks n p = ({ RatingResult.refused .restricted with
      zone := some zone, route := (zoneEntry t p).route, remote := (zoneEntry t p).remote }, [.restricted]) := by
  simp [rateRecord, valid, served, service, restricted, unmasked]

theorem rateRecord_stages {zone : Nat} {e : RateSection} (valid : validParcel t p = true)
    (served : (zoneEntry t p).zone = some zone) (service : serviceRow t p.service = some e)
    (passes : sc.restricts p.destination = false ∨ masks.restricted = true) :
    let result := rateStages t masks e (zoneEntry t p) zone (sc.restricts p.destination) n p
    rateRecord t sc masks n p = (result, (if sc.restricts p.destination then [.restricted] else []) ++
      stageFlags t e (zoneEntry t p) zone (sc.restricts p.destination) n p result) := by
  have goesOn : (sc.restricts p.destination && !masks.restricted) = false := by
    obtain h | h := passes <;> simp [h]
  simp [rateRecord, valid, served, service, goesOn]

/-- A record rated was valid, in a service zone and let through by the screen. -/
theorem rateRecord_rated (rated : (rateRecord t sc masks n p).1.refusal = none) :
    ∃ zone e, rateRecord t sc masks n p =
      (rateStages t masks e (zoneEntry t p) zone (sc.restricts p.destination) n p,
        (if sc.restricts p.destination then [.restricted] else []) ++
          stageFlags t e (zoneEntry t p) zone (sc.restricts p.destination) n p
            (rateStages t masks e (zoneEntry t p) zone (sc.restricts p.destination) n p)) := by
  cases valid : validParcel t p with
  | false => rw [rateRecord_invalid valid] at rated; cases rated
  | true =>
    obtain ⟨-, -, -, -, -, -, e, service, -⟩ := (validParcel_iff t p).1 valid
    cases served : (zoneEntry t p).zone with
    | none => rw [rateRecord_noService valid served] at rated; cases rated
    | some zone =>
      by_cases passes : sc.restricts p.destination = false ∨ masks.restricted = true
      · exact ⟨zone, e, rateRecord_stages valid served service passes⟩
      · obtain ⟨restricted, unmasked⟩ := not_or.1 passes
        rw [rateRecord_restricted valid served service (by simpa using restricted) (by simpa using unmasked)] at rated
        cases rated

end

section
variable {t : Tariff} {masks : RatingMasks} {r : RateSection} {z : ZoneEntry} {zone : Nat} {restricted : Bool}
  {n : Option Nat} {p : ParcelRecord}

/-- The fields that stages A and B and the checks before them give. -/
theorem rateStages_found (masks : RatingMasks) (r : RateSection) :
    let result := rateStages t masks r z zone restricted n p
    result.zone = some zone ∧ result.route = z.route ∧ result.remote = z.remote ∧ result.inspect = restricted ∧
    result.volume = volume p ∧ result.litres = litres p ∧ result.chargeableWeight = chargeableWeight r p := by
  dsimp only [rateStages]
  split
  · split <;> exact ⟨rfl, rfl, rfl, rfl, rfl, rfl, rfl⟩
  · exact ⟨rfl, rfl, rfl, rfl, rfl, rfl, rfl⟩

/-- No value above the limit: the values as they are, and the charge their rounding. -/
theorem rateStages_within (fits : (workings t r zone z.remote restricted n p).overflows = false) :
    let w := workings t r zone z.remote restricted n p
    rateStages t masks r z zone restricted n p =
      { rateStages t masks r z zone restricted n p with
        refusal := none, base := w.base, fuel := w.fuel, fixed := w.fixed, insurance := w.premium
        discount := w.discount, tax := w.tax, total := w.total, charge := roundBy t.mode w.total 100
        direction := roundDirection t.mode w.total 100, inexact := w.inexact || dropsRemainder w.total 100
        clamped := false } := by
  simp [rateStages, fits, RatingResult.refused]

theorem rateStages_overflow (exceeds : (workings t r zone z.remote restricted n p).overflows = true)
    (unmasked : masks.overflow = false) :
    (rateStages t masks r z zone restricted n p).refusal = some .overflow ∧
    (rateStages t masks r z zone restricted n p).inexact =
      (workings t r zone z.remote restricted n p).inexactBeforeFailure := by
  simp [rateStages, exceeds, unmasked, RatingResult.refused]

theorem rateStages_clamped (exceeds : (workings t r zone z.remote restricted n p).overflows = true)
    (masked : masks.overflow = true) :
    let w := workings t r zone z.remote restricted n p
    rateStages t masks r z zone restricted n p =
      { rateStages t masks r z zone restricted n p with
        refusal := none, base := w.base, fuel := w.fuel, fixed := w.fixed, insurance := w.premium
        discount := w.discount, tax := w.tax, total := Config.moneyLimit, charge := Config.clampedCents
        direction := .exactly, inexact := w.inexact, clamped := true } := by
  simp [rateStages, exceeds, masked]

theorem overflow_mem_iff (result : RatingResult) (restricted' : Bool) :
    Flag.overflow ∈ (if restricted' then [Flag.restricted] else []) ++ stageFlags t r z zone restricted n p result ↔
      (workings t r zone z.remote restricted n p).overflows = true := by
  simp only [stageFlags]
  cases restricted' <;> cases (workings t r zone z.remote restricted n p).overflows <;> cases result.inexact <;> decide

theorem other_flag_mem (result : RatingResult) :
    let fs := (if restricted then [Flag.restricted] else []) ++ stageFlags t r z zone restricted n p result
    (Flag.restricted ∈ fs ↔ restricted = true) ∧ Flag.invalid ∉ fs ∧ Flag.noService ∉ fs ∧
    (Flag.inexact ∈ fs ↔ result.inexact = true) := by
  dsimp only [stageFlags]
  cases (workings t r zone z.remote restricted n p).overflows <;> cases result.inexact <;> cases restricted <;> decide

theorem workings_inexact_iff : (workings t r zone z.remote restricted n p).inexact = true ↔
    let w := workings t r zone z.remote restricted n p
    fuelBase (baseCharge r zone (chargeableWeight r p)) * r.fuel % 100 ≠ 0 ∨
    (r.freeThreshold < p.declaredValue ∧ premiumNumerator r p % 100 ≠ 0) ∨
    w.subtotal * discountRate t n % 10000 ≠ 0 ∨ (w.subtotal - w.discount) * r.tax % 10000 ≠ 0 := by
  simp only [Workings.inexact, workings, Bool.or_eq_true, Bool.and_eq_true, decide_eq_true_eq, dropsRemainder_iff, or_assoc]

end

/-! ### The statement -/

/-- A rated, unclamped record has no value above the limit, and its components add up: the discount is at most half the
subtotal, so the truncated difference is exact. -/
theorem workings_add_up {t : Tariff} {r : RateSection} {zone : Nat} {remote restricted : Bool} {n : Option Nat}
    {p : ParcelRecord} (half : ∀ d ∈ t.discounts, d ≤ 5000)
    (fits : (workings t r zone remote restricted n p).overflows = false) :
    let w := workings t r zone remote restricted n p
    w.total ≤ 999999900 ∧ w.base + w.fuel + w.fixed + w.premium + w.tax = w.total + w.discount ∧
    w.discount ≤ w.base + w.fuel + w.fixed + w.premium ∧ (n = none → w.discount = 0) := by
  intro w
  have rate : discountRate t n ≤ 5000 := by
    unfold discountRate
    cases n with
    | none => exact Nat.zero_le _
    | some k =>
      show t.discounts.getD (k - 2) 0 ≤ 5000
      rw [List.getD_eq_getElem?_getD]
      cases found : t.discounts[k - 2]? with
      | none => exact Nat.zero_le _
      | some d => exact half d (List.mem_of_getElem? found)
  have within : (stages t r remote restricted n p (baseCharge r zone (chargeableWeight r p))).Within :=
    Classical.byContradiction fun h => by simp [(workings_overflows_iff rfl).2 h] at fits
  simp only [Stages.Within, List.forall_mem_cons, List.not_mem_nil, false_imp_iff, implies_true, and_true] at within
  obtain ⟨base, fuel, fixed, premium, sum, total⟩ := within
  have plain := workings_eq rfl base fuel fixed premium sum
  have bound : roundBy t.mode ((stages t r remote restricted n p (baseCharge r zone (chargeableWeight r p))).sum *
      discountRate t n) 10000 ≤ (stages t r remote restricted n p (baseCharge r zone (chargeableWeight r p))).sum :=
    roundBy_le (by decide) (Nat.mul_le_mul_left _ (rate.trans (by decide)))
  simp only [w, plain]
  refine ⟨total, ?_, bound, fun alone => ?_⟩
  · simp only [stages] at bound ⊢
    omega
  · subst alone
    simp only [stages, discountRate, Nat.mul_zero, roundBy, roundsUp]
    cases t.mode <;> rfl

/-- Settles O18, by the checks in their order; the workings are compared with the values as they come, none cut to the
limit. -/
theorem ratedComponentsAddUp : Obligations.RatedComponentsAddUp := by
  intro t sc masks n p r fs rating service longest girth' valid
  have validity : validParcel t p = true ↔ valid := validParcel_iff t p
  refine ⟨fun invalid => ?_, fun isValid z e atPrefix isService => ?_, fun half rated => ?_⟩
  · have fails : validParcel t p = false := Bool.eq_false_iff.2 fun h => invalid (validity.1 h)
    rw [rateRecord_invalid fails] at rating
    cases rating
    exact ⟨rfl, rfl⟩
  · have passes := validity.2 isValid
    have entry : zoneEntry t p = z := congrArg (·.getD ⟨none, 0, false⟩) atPrefix
    have row : serviceRow t p.service = some e := isService
    subst entry
    refine ⟨fun noZone => ?_, fun zone served => ⟨fun restricted unmasked => ?_, fun letThrough => ?_⟩⟩
    · rw [rateRecord_noService passes noZone] at rating
      cases rating
      exact ⟨rfl, rfl, rfl⟩
    · rw [rateRecord_restricted passes served row restricted unmasked] at rating
      cases rating
      exact ⟨rfl, rfl, rfl, rfl⟩
    · rw [rateRecord_stages passes served row letThrough] at rating
      obtain ⟨rfl, rfl⟩ := Prod.mk.inj rating
      intro volume' w
      obtain ⟨hzone, hroute, hremote, hinspect, hvolume, hlitres, hweight⟩ := rateStages_found
        (t := t) (z := zoneEntry t p) (zone := zone) (restricted := sc.restricts p.destination) (n := n) (p := p) masks e
      obtain ⟨hrestricted, hinvalid, hnoService, hinexact⟩ := other_flag_mem (t := t) (r := e) (z := zoneEntry t p)
        (zone := zone) (restricted := sc.restricts p.destination) (n := n) (p := p)
        (rateStages t masks e (zoneEntry t p) zone (sc.restricts p.destination) n p)
      refine ⟨hzone, hroute, hremote, hinspect, hvolume, hlitres, hweight, hrestricted, hinvalid, hnoService, hinexact,
        fun cents charges => ?_⟩
      have charge : baseCharge e zone (chargeableWeight e p) = cents := baseCharge_of_charges charges
      intro base fuel fixed excess insurance sum rate discount tax total within
      have asStages : stages t e (zoneEntry t p).remote (sc.restricts p.destination) n p cents =
          ⟨base, fuel, fixed, insurance, sum, discount, tax, total⟩ := by
        simp only [stages, fixedSurcharges_eq]
        rfl
      have exceeds : (workings t e zone (zoneEntry t p).remote (sc.restricts p.destination) n p).overflows = true ↔ ¬ within := by
        rw [workings_overflows_iff charge, asStages]
        rfl
      refine ⟨fun fits => ?_, fun fails => ⟨(overflow_mem_iff _ _).2 (exceeds.2 fails), fun unmasked => ?_, fun masked => ?_⟩⟩
      · have plain : (workings t e zone (zoneEntry t p).remote (sc.restricts p.destination) n p).overflows = false :=
          Bool.eq_false_iff.2 fun h => exceeds.1 h fits
        have values := workings_eq charge (t := t) (remote := (zoneEntry t p).remote)
          (restricted := sc.restricts p.destination) (n := n) (fits base (by simp))
        rw [asStages] at values
        have values := values (fits fuel (by simp)) (fits fixed (by simp)) (fits insurance (by simp)) (fits sum (by simp))
        rw [overflow_mem_iff, plain, rateStages_within plain, values]
        refine ⟨rfl, rfl, rfl, rfl, rfl, rfl, rfl, rfl, rfl, rfl, roundDirection_eq _ _ _, ?_, nofun⟩
        simp only [Workings.inexact, Bool.or_eq_true, Bool.and_eq_true, decide_eq_true_eq, dropsRemainder_iff, or_assoc]
        exact Iff.rfl
      · obtain ⟨refused, inexact⟩ := rateStages_overflow (exceeds.2 fails) unmasked
        refine ⟨refused, ?_⟩
        have counted := inexactBeforeFailure_iff charge (t := t) (remote := (zoneEntry t p).remote)
          (restricted := sc.restricts p.destination) (n := n)
        rw [asStages] at counted
        rw [inexact]
        exact counted
      · have capped : fuelBase cents = if base ≤ 999999900 then cents else 9999999 := fuelBase_eq cents
        have inexact := workings_inexact_iff (t := t) (r := e) (z := zoneEntry t p) (zone := zone)
          (restricted := sc.restricts p.destination) (n := n) (p := p)
        rw [rateStages_clamped (exceeds.2 fails) masked, inexact]
        dsimp only [workings]
        rw [charge, capped, fixedSurcharges_eq]
        exact ⟨rfl, rfl, rfl, rfl, rfl, rfl, rfl, rfl, rfl, rfl, rfl, Iff.rfl⟩
  · rw [show r = (rateRecord t sc masks n p).1 from congrArg Prod.fst rating.symm] at rated
    obtain ⟨zone, e, stagesMade⟩ := rateRecord_rated rated
    rw [stagesMade] at rating rated
    obtain ⟨rfl, rfl⟩ := Prod.mk.inj rating
    cases exceeds : (workings t e zone (zoneEntry t p).remote (sc.restricts p.destination) n p).overflows with
    | false =>
      obtain ⟨total, addUp, discount, alone⟩ := workings_add_up half exceeds
      rw [overflow_mem_iff, exceeds, rateStages_within exceeds]
      exact ⟨roundBy_le (by decide) (by omega), total, fun _ => ⟨addUp, discount, alone, rfl, nofun⟩, nofun⟩
    | true =>
      cases masked : masks.overflow with
      | false => rw [(rateStages_overflow exceeds masked).1] at rated; cases rated
      | true =>
        rw [overflow_mem_iff, exceeds, rateStages_clamped exceeds masked]
        exact ⟨le_refl _, le_refl _, nofun, fun _ => ⟨rfl, rfl, rfl, rfl, rfl⟩⟩

end Sys2Proof.Machine

end

section
/-! LEAVE (R144). -/

namespace Sys2Proof.Machine

theorem modify_of_getElem? {α : Type} {l : List α} {i : Nat} {a : α} (h : l[i]? = some a) (f : α → α) :
    l.modify i f = l.set i (f a) := by
  refine List.ext_getElem? fun k => ?_
  rw [List.getElem?_modify, List.getElem?_set]
  by_cases e : i = k
  · subst e
    obtain ⟨inList, rfl⟩ := List.getElem?_eq_some_iff.1 h
    simp [inList]
  · simp [e]

/-- What LEAVE makes of an entry: a frame for its home queued at `q` when it holds its lot, an asking not yet accepted
dropped. -/
def LotEntry.left (e : LotEntry) (home q : Nat) : LotEntry :=
  if e.holds then e.queued ⟨.handover, home, q⟩
  else if e.state = .asking ∧ !e.fetchAccepted then { (e.askingEnds false) with frame := none }
  else e

/-- The home of the lot that an entry names. -/
def State.homeOfEntry (s : State) (e : LotEntry) : Nat := match e.lot with | some l => s.homeOf l | none => 0

theorem holds_iff (e : LotEntry) : e.holds = true ↔ e.state = .owned ∨ e.state = .ownedModified := by
  simp [LotEntry.holds]

theorem table_leaveEntry (s : State) (i : Nat) :
    (s.leaveEntry i).table = s.table.modify i fun e => e.left (s.homeOfEntry e) s.ordinal := by
  by_cases inTable : i < s.table.length
  · have found := entry_eq_getElem s i inTable
    have same {f g : LotEntry → LotEntry} (h : f s.table[i] = g s.table[i]) : s.table.modify i f = s.table.modify i g := by
      rw [modify_of_getElem? (List.getElem?_eq_getElem inTable), modify_of_getElem? (List.getElem?_eq_getElem inTable), h]
    unfold State.leaveEntry
    dsimp only
    rw [found]
    split
    case isTrue holds =>
      refine same ?_
      rw [LotEntry.left, if_pos holds]
      rfl
    case isFalse lacks =>
      split
      case isTrue asking =>
        refine same ?_
        rw [LotEntry.left, if_neg lacks, if_pos asking]
      case isFalse other =>
        refine (List.modify_id i s.table).symm.trans (same ?_)
        rw [LotEntry.left, if_neg lacks, if_neg other]
        rfl
  · have out := entry_of_ge s i inTable
    have stays : s.leaveEntry i = s := by
      unfold State.leaveEntry
      rw [out]
      rfl
    rw [stays, List.modify_eq_self (Nat.le_of_not_lt inTable)]

theorem leaveEntry_eq (s : State) (i : Nat) :
    s.leaveEntry i = { s with table := (s.leaveEntry i).table, ordinal := (s.leaveEntry i).ordinal } := by
  unfold State.leaveEntry
  dsimp only
  split
  · rfl
  · split <;> rfl

/-- LEAVE goes through the entries one by one; those not yet reached are as they were. -/
theorem leaveEntries_spec (s : State) (n : Nat) :
    let u := (List.range n).foldl State.leaveEntry s
    u = { s with table := u.table, ordinal := u.ordinal } ∧ u.table.length = s.table.length ∧
    ∀ (k : Nat) (e : LotEntry), s.table[k]? = some e →
      (k < n → ∃ q, u.table[k]? = some (e.left (s.homeOfEntry e) q)) ∧ (n ≤ k → u.table[k]? = some e) := by
  induction n with
  | zero => exact ⟨rfl, rfl, fun k e found => ⟨nofun, fun _ => found⟩⟩
  | succ n ih =>
    simp only [List.range_succ, List.foldl_append, List.foldl_cons, List.foldl_nil]
    generalize (List.range n).foldl State.leaveEntry s = v at ih
    obtain ⟨outside, length, entries⟩ := ih
    have home (e : LotEntry) : v.homeOfEntry e = s.homeOfEntry e := by rw [outside]; rfl
    refine ⟨?_, ?_, fun k e found => ?_⟩
    · refine (leaveEntry_eq v n).trans ?_
      rw [outside]
    · rw [table_leaveEntry, List.length_modify, length]
    · obtain ⟨reached, waits⟩ := entries k e found
      rw [table_leaveEntry, List.getElem?_modify]
      refine ⟨fun below => ?_, fun above => ?_⟩
      · by_cases last : n = k
        · refine ⟨v.ordinal, ?_⟩
          rw [waits last.le, Option.map_eq_map, Option.map_some, if_pos last, home e]
        · obtain ⟨q, at'⟩ := reached (by omega)
          exact ⟨q, by rw [at', Option.map_eq_map, Option.map_some, if_neg last]⟩
      · rw [waits (by omega), Option.map_eq_map, Option.map_some, if_neg (by omega)]

theorem leaveTable_spec (s : State) :
    s.leaveTable = { s with table := s.leaveTable.table, ordinal := s.leaveTable.ordinal } ∧
    s.leaveTable.table.length = s.table.length ∧
    ∀ (k : Nat) (e : LotEntry), s.table[k]? = some e →
      ∃ q, s.leaveTable.table[k]? = some (e.left (s.homeOfEntry e) q) := by
  obtain ⟨outside, length, entries⟩ := leaveEntries_spec s s.table.length
  exact ⟨outside, length, fun k e found => (entries k e found).1 (List.getElem?_eq_some_iff.1 found).1⟩

/-- An entry holds its lot after LEAVE as before. -/
theorem left_holds (e : LotEntry) (home q : Nat) : (e.left home q).holds = e.holds := by
  unfold LotEntry.left
  split
  · rfl
  · split
    case isTrue asking =>
      unfold LotEntry.askingEnds
      have lacks : e.holds = false := by simp [LotEntry.holds, asking.1]
      rw [lacks]
      split <;> rfl
    case isFalse => rfl

theorem left_of_queueable {e : LotEntry} (holds : e.state = .owned ∨ e.state = .ownedModified)
    (free : e.frame = none ∨ (∃ g, e.frame = some g ∧ g.kind = .notice)) (home q : Nat) :
    e.left home q = { e with frame := some ⟨.handover, home, q⟩, handingOver := true, publishTimer := none } := by
  have queueable : queueable e.frame .handover = true := by
    obtain none | ⟨g, frame, notice⟩ := free
    · rw [none]; rfl
    · rw [frame, queueable, notice]; rfl
  rw [LotEntry.left, if_pos ((holds_iff e).2 holds), LotEntry.queued, queueFrame]
  simp [queueable]

theorem left_of_leaving {e : LotEntry} (holds : e.state = .owned ∨ e.state = .ownedModified)
    (leaves : ∃ g, e.frame = some g ∧ (g.kind = .handover ∨ g.kind = .tally)) (home q : Nat) : e.left home q = e := by
  obtain ⟨g, frame, kind⟩ := leaves
  have stays : queueable e.frame .handover = false := by
    rw [frame, queueable]
    obtain kind | kind := kind <;> rw [kind] <;> rfl
  rw [LotEntry.left, if_pos ((holds_iff e).2 holds), LotEntry.queued, queueFrame]
  simp [stays]

/-- Settles O41. -/
theorem leaveSendsTheLotsHome : Obligations.LeaveSendsTheLotsHome := by
  intro s running ready
  have taken : exec .leave s = .next s.leaveTaken :=
    congrArg _ (State.exchange_taken _ running (by rw [ready]; rfl))
  rw [taken, State.leaveTaken]
  refine ⟨fun ⟨x, inRing, tag⟩ => ?_, fun empty => ?_⟩
  · have notEmpty : s.ring.isEmpty = false :=
      Bool.eq_false_iff.2 fun h => tag (by simpa using List.all_eq_true.1 h x inRing)
    rw [if_neg (by simp [notEmpty])]
    rfl
  · have isEmpty : s.ring.isEmpty = true := List.all_eq_true.2 fun x hx => by simpa using empty x hx
    rw [if_pos isEmpty]
    refine ⟨_, rfl, ?_⟩
    obtain ⟨outside, length, entries⟩ := leaveTable_spec { s with station := .leaving }
    generalize ({ s with station := .leaving } : State).leaveTable = v at outside length entries
    have owners : v.ownsForeign = true ↔ ∃ e ∈ s.table, e.state = .owned ∨ e.state = .ownedModified := by
      simp only [State.ownsForeign, List.any_eq_true, ← holds_iff]
      constructor
      · rintro ⟨e', inTable, holds⟩
        obtain ⟨k, hk, rfl⟩ := List.getElem_of_mem inTable
        have found : s.table[k]? = some (s.table[k]'(length ▸ hk)) := List.getElem?_eq_getElem _
        obtain ⟨q, at'⟩ := entries k _ found
        rw [List.getElem?_eq_getElem hk, Option.some.injEq] at at'
        exact ⟨_, List.getElem_mem _, by rw [← left_holds, ← at']; exact holds⟩
      · rintro ⟨e, inTable, holds⟩
        obtain ⟨k, hk, rfl⟩ := List.getElem_of_mem inTable
        obtain ⟨q, at'⟩ := entries k _ (List.getElem?_eq_getElem hk)
        exact ⟨_, List.mem_of_getElem? at', by rw [left_holds]; exact holds⟩
    have station : v.settleLeaving.station =
        if ∃ e ∈ s.table, e.state = .owned ∨ e.state = .ownedModified then .leaving else .serving := by
      have leaving : v.station = .leaving := by rw [outside]
      rw [State.settleLeaving]
      by_cases owns : v.ownsForeign = true
      · rw [if_pos (owners.1 owns), if_neg (by simp [owns]), leaving]
      · rw [if_neg (fun h => owns (owners.2 h)), if_pos ⟨leaving, by simpa using owns⟩]
    have settled : v.settleLeaving = { s with station := v.settleLeaving.station, table := v.table, ordinal := v.ordinal } := by
      unfold State.settleLeaving
      split <;> rw [outside]
    refine ⟨rfl, ?_⟩
    rw [State.answer, settled, station]
    refine ⟨rfl, rfl, rfl, rfl, rfl, rfl, rfl, rfl, rfl, rfl, length, fun k e found => ?_⟩
    obtain ⟨q, at'⟩ := entries k e found
    refine ⟨_, at', fun holds free => ⟨q, left_of_queueable holds free _ _⟩, fun holds leaves => left_of_leaving holds leaves _ _,
      fun asking stopped first => ?_, fun asking accepted => ?_, fun other => ?_⟩
    · rw [LotEntry.left, if_neg (by simp [LotEntry.holds, asking]),
        if_pos ⟨asking, by simp [LotEntry.fetchAccepted, stopped, first]⟩, LotEntry.askingEnds]
      cases figures : e.figures <;> simp [LotEntry.cleared]
    · have accepted : e.fetchAccepted = true := by
        rw [LotEntry.fetchAccepted, Bool.or_eq_true, decide_eq_true_eq]
        exact accepted
      rw [LotEntry.left, if_neg (by simp [LotEntry.holds, asking]), if_neg (by simp [accepted])]
    · rw [LotEntry.left, if_neg (by obtain h | h := other <;> simp [LotEntry.holds, h]),
        if_neg (by obtain h | h := other <;> simp [h])]

/-! ### RESET WARM (R119, R180) -/

/-- What a home record queues afresh: a HANDOVER to its queue's head, or a TALLY when the lot is past its cut-off. -/
def HomeRecord.requeued (r : HomeRecord) (past : Bool) (q : Nat) : HomeRecord :=
  if r.holds then
    match r.queue with
    | head :: _ => r.queued ⟨.handover, head, q⟩
    | [] => if past && queueable r.frame .tally then r.queued ⟨.tally, 0, q⟩ else r
  else r

theorem requeueHome_eq (s : State) (lot : Nat) :
    s.requeueHome lot = { s with home := (s.requeueHome lot).home, ordinal := (s.requeueHome lot).ordinal } := by
  unfold State.requeueHome
  split
  · rfl
  · split
    · split
      · rfl
      · unfold State.testTally
        split <;> rfl
    · rfl

theorem home_requeueHome {s : State} (distinct : s.HomeDistinct) (lot : Nat) : (s.requeueHome lot).home =
    s.home.map fun r => if r.lot = lot then r.requeued (s.pastCutOff lot) s.ordinal else r := by
  unfold State.requeueHome
  split
  case h_1 absent =>
    refine (List.map_id _).symm.trans (List.map_congr_left fun r inStore => ?_)
    have other : r.lot ≠ lot := by simpa using List.find?_eq_none.1 absent r inStore
    rw [if_neg other, id]
  case h_2 r found =>
    have stays (same : r.requeued (s.pastCutOff lot) s.ordinal = r) :
        s.home = s.home.map fun x => if x.lot = lot then x.requeued (s.pastCutOff lot) s.ordinal else x := by
      refine (List.map_id _).symm.trans (List.map_congr_left fun x inStore => ?_)
      split
      case isTrue named => rw [findHome_unique distinct found inStore named, same, id]
      case isFalse => rfl
    have queues {f : PendingFrame} (same : r.requeued (s.pastCutOff lot) s.ordinal = r.queued f) :
        (s.home.map fun x => if x.lot = lot then x.queued f else x) =
          s.home.map fun x => if x.lot = lot then x.requeued (s.pastCutOff lot) s.ordinal else x := by
      refine List.map_congr_left fun x inStore => ?_
      split
      case isTrue named => rw [findHome_unique distinct found inStore named, same]
      case isFalse => rfl
    have tallyDue (empty : r.queue = []) : s.tallyDue (.home lot) =
        (r.holds && s.pastCutOff lot && queueable r.frame .tally) := by
      rw [State.tallyDue, found]
      simp [empty]
    split
    case isTrue holds =>
      split
      case h_1 head rest queue =>
        exact queues (by rw [HomeRecord.requeued, if_pos holds, queue])
      case h_2 empty =>
        rw [State.testTally, tallyDue empty, holds, Bool.true_and]
        split
        case isTrue due =>
          exact queues (by rw [HomeRecord.requeued, if_pos holds, empty]; exact if_pos due)
        case isFalse notDue =>
          exact stays (by rw [HomeRecord.requeued, if_pos holds, empty]; exact if_neg notDue)
    case isFalse lacks => exact stays (if_neg lacks)

/-- The home records queue afresh one by one, each once. -/
theorem requeueHomes_spec (lots : List Nat) (s : State) (distinct : s.HomeDistinct) (nodup : lots.Nodup) :
    let u := lots.foldl State.requeueHome s
    u = { s with home := u.home, ordinal := u.ordinal } ∧ u.home.length = s.home.length ∧
    ∀ (k : Nat) (r : HomeRecord), s.home[k]? = some r →
      (r.lot ∈ lots → ∃ q, u.home[k]? = some (r.requeued (s.pastCutOff r.lot) q)) ∧
      (r.lot ∉ lots → u.home[k]? = some r) := by
  induction lots generalizing s with
  | nil => exact ⟨rfl, rfl, fun k r found => ⟨nofun, fun _ => found⟩⟩
  | cons lot lots ih =>
    obtain ⟨fresh, nodup⟩ := List.nodup_cons.1 nodup
    have first := requeueHome_eq s lot
    have records := home_requeueHome distinct lot
    have distinct' : (s.requeueHome lot).HomeDistinct := by
      rw [State.HomeDistinct, (Keeps.requeueHome s lot).homeLots]
      exact distinct
    obtain ⟨outside, length, others⟩ := ih (s.requeueHome lot) distinct' nodup
    rw [List.foldl_cons]
    refine ⟨outside.trans ?_, length.trans ?_, fun k r found => ?_⟩
    · rw [first]
    · rw [records, List.length_map]
    · have past (x : Nat) : (s.requeueHome lot).pastCutOff x = s.pastCutOff x := by rw [first]; rfl
      have same (r : HomeRecord) (past : Bool) (q : Nat) : (r.requeued past q).lot = r.lot := by
        unfold HomeRecord.requeued
        split
        · split
          · rfl
          · split <;> rfl
        · rfl
      have here : (s.requeueHome lot).home[k]? =
          some (if r.lot = lot then r.requeued (s.pastCutOff lot) s.ordinal else r) := by
        rw [records, List.getElem?_map, found]
        rfl
      by_cases named : r.lot = lot
      · rw [if_pos named] at here
        have stays := (others k _ here).2 (by rw [same, named]; exact fresh)
        exact ⟨fun _ => ⟨s.ordinal, named ▸ stays⟩, fun absent => absurd (named ▸ List.mem_cons_self) absent⟩
      · rw [if_neg named] at here
        obtain ⟨later, never⟩ := others k r here
        refine ⟨fun member => ?_, fun absent => never fun h => absent (List.mem_cons_of_mem _ h)⟩
        obtain ⟨q, at'⟩ := later ((List.mem_cons.1 member).resolve_left named)
        exact ⟨q, by rw [← past]; exact at'⟩

/-- A home record after the warm reset and its queuing (R119). -/
theorem warm_requeued (r : HomeRecord) (past : Bool) (q : Nat) :
    let r' := r.warm.requeued past q
    r'.lot = r.lot ∧ r'.figures = r.figures ∧
    r'.lastSeen = r.lastSeen ∧ r'.reclaimed = r.reclaimed ∧ r'.queue = r.queue ∧ r'.waiting = [] ∧
    (r.state ≠ .askingHome → r'.state = r.state) ∧
    (r.state = .askingHome → r'.attempts = 0 ∧ r'.fetchTimer = none ∧
      r'.state = (if r.lastSeen = none then .unknown else .away)) ∧
    (r.state ≠ .atHome → r'.frame = none ∧ r'.handingOver = false) ∧
    (r.state = .atHome → ∀ h rest, r.queue = h :: rest →
      r'.handingOver = true ∧ ∃ q, r'.frame = some ⟨.handover, h, q⟩) ∧
    (r.state = .atHome → r.queue = [] → r'.handingOver = false ∧
      (past = true → ∃ q, r'.frame = some ⟨.tally, 0, q⟩) ∧ (past = false → r'.frame = none)) := by
  have stays (lacks : r.warm.holds = false) : r.warm.requeued past q = r.warm := by
    rw [HomeRecord.requeued, if_neg (by simp [lacks])]
  cases state : r.state with
  | atHome =>
    have warm : r.warm = { r with frame := none, handingOver := false, waiting := [] } := by
      rw [HomeRecord.warm, state]
    rw [warm, HomeRecord.requeued, if_pos (by simp [HomeRecord.holds, state])]
    cases queue : r.queue with
    | nil =>
      cases past with
      | true => exact ⟨rfl, rfl, rfl, rfl, rfl, rfl, fun _ => state, nofun, fun h => absurd rfl h, nofun,
          fun _ _ => ⟨rfl, fun _ => ⟨q, rfl⟩, nofun⟩⟩
      | false => exact ⟨rfl, rfl, rfl, rfl, rfl, rfl, fun _ => state, nofun, fun h => absurd rfl h, nofun,
          fun _ _ => ⟨rfl, nofun, fun _ => rfl⟩⟩
    | cons head rest =>
      refine ⟨rfl, rfl, rfl, rfl, rfl, rfl, fun _ => state, nofun, fun h => absurd rfl h, fun _ h others same => ?_, nofun⟩
      cases same
      exact ⟨rfl, q, rfl⟩
  | askingHome =>
    have warm : r.warm = { r with
        state := if r.lastSeen.isSome then .away else .unknown
        attempts := 0, fetchTimer := none, frame := none, handingOver := false, waiting := [] } := by
      rw [HomeRecord.warm, state]
    rw [stays (by rw [warm]; cases r.lastSeen <;> rfl), warm]
    refine ⟨rfl, rfl, rfl, rfl, rfl, rfl, fun h => absurd rfl h, fun _ => ⟨rfl, rfl, ?_⟩, fun _ => ⟨rfl, rfl⟩, nofun, nofun⟩
    cases r.lastSeen <;> rfl
  | away | unknown | ended =>
    have warm : r.warm = { r with frame := none, handingOver := false, waiting := [] } := by
      rw [HomeRecord.warm, state]
    rw [stays (by rw [warm, HomeRecord.holds]; simp [state]), warm]
    exact ⟨rfl, rfl, rfl, rfl, rfl, rfl, fun _ => state, nofun, fun _ => ⟨rfl, rfl⟩, nofun, nofun⟩

/-- Settles O42. -/
theorem warmResetKeepsTheDay : Obligations.WarmResetKeepsTheDay := by
  intro s running taking distinct
  have taken : exec .resetWarm s = .next (s.warmReset.answer (ok .nothing)) :=
    congrArg _ (State.exchange_taken _ running (by obtain h | h | h | h := taking <;> rw [h] <;> rfl))
  have lot (r : HomeRecord) : r.warm.lot = r.lot := by unfold HomeRecord.warm; split <;> rfl
  have lots : (s.home.map HomeRecord.warm).map (·.lot) = s.home.map (·.lot) := by
    rw [List.map_map]
    exact List.map_congr_left fun r _ => lot r
  have nodup : (s.home.map (·.lot)).Nodup := distinct
  rw [taken, State.warmReset]
  dsimp only
  rw [lots]
  obtain ⟨outside, length, records⟩ := requeueHomes_spec (s.home.map (·.lot)) { s with
    ring := Ring.cleared
    table := List.replicate Config.entryCount LotEntry.cleared
    home := s.home.map HomeRecord.warm
    line := s.line.warm
    screen := s.defaultScreen
    station := if s.station = .tariffFault then .tariffFault else .ready } (by rw [State.HomeDistinct, lots]; exact nodup) nodup
  generalize (s.home.map (·.lot)).foldl State.requeueHome _ = v at outside length records
  refine ⟨_, rfl, ?_⟩
  rw [State.answer, outside]
  refine ⟨rfl, rfl, rfl, rfl, rfl, rfl, rfl, ?_, rfl, rfl, rfl, rfl, rfl, rfl, rfl, ?_, rfl, rfl, rfl, rfl, rfl, rfl,
    length.trans (List.length_map ..), fun k r found => ?_⟩
  · rw [State.defaultScreen, State.tariff]
    cases s.store <;> rfl
  · rw [LineController.warm]
    cases s.line.state <;> rfl
  · obtain ⟨q, at'⟩ := (records k r.warm (by rw [List.getElem?_map, found]; rfl)).1
      (List.mem_map.2 ⟨r, List.mem_of_getElem? found, (lot r).symm⟩)
    rw [lot] at at'
    refine ⟨_, at', ?_⟩
    exact warm_requeued r _ q

end Sys2Proof.Machine

end

section
/-! The hall line: joining, the choice and forming of frames, failed attempts, duplicate numbers (R147 to R161). -/

namespace Sys2Proof.Machine

/-! ### What an accepted frame leaves in the line controller (R153) -/

theorem modify_const_eq_set {α : Type} (l : List α) (i : Nat) (a : α) : l.modify i (fun _ => a) = l.set i a := by
  refine List.ext_getElem? fun k => ?_
  rw [List.getElem?_modify, List.getElem?_set]
  by_cases e : i = k
  · subst e
    by_cases inList : i < l.length <;> simp [inList]
  · simp [e]

theorem markPresent_eq (s : State) (station : Nat) :
    s.markPresent station = { s with line := { s.line with presence := s.line.presence.set station ⟨true, some 60000⟩ } } := by
  rw [State.markPresent, modify_const_eq_set]
  rfl

theorem sentToEnd_none {s : State} {f : HallFrame} (other : ∀ t, s.line.transmission = some t → t.formed ≠ some f) :
    s.sentToEnd f = none := by
  unfold State.sentToEnd
  split
  case h_1 t sending => exact if_neg (other t sending)
  case h_2 => rfl

theorem sentToEnd_some {s : State} {f : HallFrame} {t : Transmission} (sending : s.line.transmission = some t)
    (formed : t.formed = some f) : s.sentToEnd f = some t := by
  rw [State.sentToEnd, sending]
  exact if_pos formed

theorem isOwnFrame_other {s : State} {f : HallFrame} (other : ∀ t, s.line.transmission = some t → t.formed ≠ some f) :
    s.isOwnFrame f = false := by rw [State.isOwnFrame, sentToEnd_none other]; rfl

/-- A frame of another number. -/
theorem takeFrame_heard {s : State} {f : HallFrame} (other : ∀ t, s.line.transmission = some t → t.formed ≠ some f)
    (foreign : f.sender ≠ s.own) : s.takeFrame f = { s with line := s.line.heard f.sender } := by
  rw [State.takeFrame, sentToEnd_none other]
  dsimp only
  rw [if_neg foreign, markPresent_eq]
  rfl

/-- A frame of the own number that was not sent, in DUPLICATE already. -/
theorem takeFrame_heardAgain {s : State} {f : HallFrame} (other : ∀ t, s.line.transmission = some t → t.formed ≠ some f)
    (own : f.sender = s.own) (duplicate : s.line.state = .duplicate) :
    s.takeFrame f = { s with line := s.line.heard s.own } := by
  rw [State.takeFrame, sentToEnd_none other]
  dsimp only
  rw [if_pos own, markPresent_eq, State.enterDuplicate, if_pos duplicate, own]
  rfl

/-- A frame of the own number that was not sent takes the line to DUPLICATE (R156). -/
theorem takeFrame_duplicated {s : State} {f : HallFrame} (other : ∀ t, s.line.transmission = some t → t.formed ≠ some f)
    (own : f.sender = s.own) (single : s.line.state ≠ .duplicate) :
    s.takeFrame f = ({ s with line := s.line.duplicated s.own } : State).raise .duplicate := by
  rw [State.takeFrame, sentToEnd_none other]
  dsimp only
  rw [if_pos own, markPresent_eq, State.enterDuplicate, if_neg single, own]
  rfl

/-- The own frame, sent to its end and still the pending one of its record. -/
theorem takeFrame_own {s : State} {f : HallFrame} {t : Transmission} {g : PendingFrame}
    (sending : s.line.transmission = some t) (formed : t.formed = some f) (offered : s.stillOffered t = some g) :
    s.takeFrame f = ({ s with line := { s.line with
      presence := s.line.presence.set f.sender ⟨true, some 60000⟩, transmission := none, droveSlot := false
      attempt := none
      beaconTimer := if s.line.state = .active then some 20000 else s.line.beaconTimer } } : State).clearFrame t.owner := by
  have still : (s.markPresent f.sender).stillOffered t = some g := offered
  rw [State.takeFrame, sentToEnd_some sending formed]
  dsimp only
  rw [State.ownAccepted, still, markPresent_eq]
  cases t.owner <;> rfl

/-! ### LISTEN, JOINING, ACTIVE (R158 to R161) -/

theorem queueHello_none {s : State} (none : s.line.hello = none) :
    s.queueHello = { s with line := { s.line with hello := some s.ordinal }, ordinal := s.ordinal + 1 } := by
  rw [State.queueHello, none]
  rfl

theorem queueHello_some {s : State} (pending : s.line.hello.isSome = true) : s.queueHello = s := by
  obtain ⟨q, hello⟩ := Option.isSome_iff_exists.1 pending
  rw [State.queueHello, hello]

theorem seeIdle_listen {s : State} (listen : s.line.state = .listen) :
    s.seeIdle = ({ s with line := { s.line with state := .joining } } : State).queueHello := if_pos listen

theorem exec_hello {s : State} (sender e : Nat) (n : BitVec 32) (running : s.held = false) (on : s.line.state ≠ .off) :
    exec (.helloAccepted sender e n) s = .next ((s.takeFrame ⟨sender, .hello e n⟩).onHello e (s.isOwnFrame ⟨sender, .hello e n⟩)) :=
  congrArg Host.Outcome.next ((State.whenRunning_running _ running).trans (if_neg on))

/-- Another's HELLO sets EditionMismatch when its edition differs (R160). -/
theorem onHello_other (s : State) (e : Nat) :
    s.onHello e false = if e = s.edition then s else s.raise .editionMismatch := by
  unfold State.onHello
  rw [if_neg Bool.false_ne_true]
  by_cases h : e = s.edition <;> simp [h]

/-- Settles O51. -/
theorem stationJoinsTheLine : Obligations.StationJoinsTheLine := by
  intro s running
  refine ⟨fun listen => ⟨fun none => ?_, fun pending => ?_⟩, fun e n q joining hello sending => ?_,
    fun sender e n on quiet foreign => ?_⟩
  · exact congrArg _ ((State.whenRunning_running _ running).trans ((seeIdle_listen listen).trans (queueHello_none none)))
  · exact congrArg _ ((State.whenRunning_running _ running).trans ((seeIdle_listen listen).trans (queueHello_some pending)))
  · have sent := sentToEnd_some sending (f := ⟨s.own, .hello e n⟩) rfl
    have offered : s.stillOffered ⟨.hello, .hello, q, some ⟨s.own, .hello e n⟩⟩ = some ⟨.hello, 0, q⟩ := by
      rw [State.stillOffered, State.pendingFrame, hello]
      exact if_pos ⟨rfl, rfl⟩
    rw [exec_hello s.own e n running (by simp [joining]), State.isOwnFrame, sent, takeFrame_own sending rfl offered]
    exact congrArg _ ((if_pos rfl).trans (if_pos joining))
  · have other : ∀ t, s.line.transmission = some t → t.formed ≠ some ⟨sender, .hello e n⟩ := by simp [quiet]
    rw [exec_hello sender e n running on, isOwnFrame_other other, takeFrame_heard other foreign, onHello_other]
    exact ⟨fun same => congrArg _ (if_pos same), fun differs => congrArg _ (if_neg differs)⟩

/-! ### The frame offered (R149, R150, R157) -/

theorem firstFrame_spec (l : List (FrameOwner × PendingFrame)) : (l = [] → firstFrame l = none) ∧
    (l ≠ [] → ∃ x ∈ l, firstFrame l = some x ∧ ∀ g ∈ l, x.2.kind.code < g.2.kind.code ∨
      (x.2.kind.code = g.2.kind.code ∧ x.2.queuedAt ≤ g.2.queuedAt)) := by
  induction l with
  | nil => exact ⟨fun _ => rfl, fun h => absurd rfl h⟩
  | cons f fs ih =>
    refine ⟨nofun, fun _ => ?_⟩
    rw [firstFrame]
    by_cases last : fs = []
    · subst last
      exact ⟨f, List.mem_cons_self, rfl, by simp⟩
    · obtain ⟨x, member, first, least⟩ := ih.2 last
      rw [first]
      dsimp only
      have before : x.2.before f.2 = true ↔ x.2.kind.code < f.2.kind.code ∨
          (x.2.kind.code = f.2.kind.code ∧ x.2.queuedAt < f.2.queuedAt) := by simp [PendingFrame.before]
      by_cases earlier : x.2.before f.2 = true
      · refine ⟨x, List.mem_cons_of_mem _ member, if_pos earlier, fun g inList => ?_⟩
        obtain rfl | inRest := List.mem_cons.1 inList
        · have := before.1 earlier
          omega
        · exact least g inRest
      · refine ⟨f, List.mem_cons_self, if_neg earlier, fun g inList => ?_⟩
        obtain rfl | inRest := List.mem_cons.1 inList
        · omega
        · have := least g inRest
          have := mt before.2 earlier
          omega

theorem startFrame_quiet {s : State} (quiet : s.line.transmission = none) :
    s.startFrame = match s.chooseFrame with
      | some (o, f) => { s with line := { s.line with transmission := some ⟨o, f.kind, f.queuedAt, none⟩ } }
      | none => s := by
  rw [State.startFrame, quiet]
  cases s.chooseFrame <;> rfl

theorem winLine_unformed {s : State} {t : Transmission} (sending : s.line.transmission = some t) (unformed : t.formed = none) :
    s.winLine = match s.stillOffered t with
      | some f => { s with line := { s.line with transmission := some { t with formed := some ⟨s.own, s.formBody t.owner f⟩ } } }
      | none => s.stopSending := by
  rw [State.winLine, sending]
  dsimp only
  rw [unformed]
  cases s.stillOffered t <;> rfl

/-- Settles O52. -/
theorem framesOfferedAndFormed : Obligations.FramesOfferedAndFormed := by
  intro s running
  have starts : exec .transmitStart s = .next s.startFrame := congrArg _ (State.whenRunning_running _ running)
  have wins : exec .frameWinsLine s = .next s.winLine := congrArg _ (State.whenRunning_running _ running)
  refine ⟨fun active quiet => ?_, fun q joining quiet hello => ?_, fun idle => ?_, fun t sending unformed => ?_⟩
  · have choice : s.chooseFrame = firstFrame (s.pendingLotFrames ++ s.pendingHello) := by rw [State.chooseFrame, active]
    rw [starts, startFrame_quiet quiet, choice]
    obtain ⟨nothing, something⟩ := firstFrame_spec (s.pendingLotFrames ++ s.pendingHello)
    refine ⟨fun none => by rw [nothing none], fun some' => ?_⟩
    obtain ⟨⟨o, f⟩, member, first, least⟩ := something some'
    exact ⟨o, f, member, least, by rw [first]⟩
  · rw [starts, startFrame_quiet quiet, State.chooseFrame, joining, State.pendingHello, hello]
    rfl
  · rw [starts]
    obtain ⟨notActive, notJoining⟩ | busy := idle
    · have nothing : s.chooseFrame = none := by
        unfold State.chooseFrame
        split
        case h_1 active => exact absurd active notActive
        case h_2 joining => exact absurd joining notJoining
        all_goals rfl
      rw [State.startFrame, nothing]
      cases s.line.transmission <;> rfl
    · obtain ⟨t, sending⟩ := Option.isSome_iff_exists.1 busy
      rw [State.startFrame, sending]
  · have lost : exec .arbitrationLost s = .next s.stopSending := by
      refine congrArg _ ((State.whenRunning_running _ running).trans ?_)
      rw [State.loseArbitration, sending]
      dsimp only
      rw [unformed]
      rfl
    rw [wins, winLine_unformed sending unformed]
    refine ⟨fun f pending kind age => ?_, fun none => ?_, fun f pending differs => ?_, lost⟩
    · have offered : s.stillOffered t = some f := by
        rw [State.stillOffered, pending]
        exact if_pos ⟨kind, age⟩
      rw [offered]
      refine ⟨s.formBody t.owner f, rfl, fun lot r owner found => ?_, fun i e lot owner found named => ?_, fun owner => ?_⟩
      · have same := (findHome_some found).2
        have body : s.formBody t.owner f = r.formBody f := by rw [owner, State.formBody, found]
        rw [body, ← kind, HomeRecord.formBody, same]
        exact ⟨fun k => by rw [k], fun g k seen => by rw [k, seen]; rfl, fun k seen => by rw [k, seen]; rfl,
          fun k => by rw [k], fun k => by rw [k]⟩
      · have entry : s.entry i = e := by rw [State.entry, List.getD_eq_getElem?_getD, found]; rfl
        have body : s.formBody t.owner f = e.formBody f := by rw [owner, State.formBody, entry]
        rw [body, ← kind, LotEntry.formBody, named]
        exact ⟨fun k => by rw [k]; rfl, fun k => by rw [k]; rfl, fun k => by rw [k]; rfl, fun k => by rw [k]; rfl,
          fun k => by rw [k]; rfl⟩
      · rw [owner]
        rfl
    · rw [State.stillOffered, none]
      rfl
    · have gone : s.stillOffered t = none := by
        rw [State.stillOffered, pending]
        exact if_neg fun ⟨kind, age⟩ => differs.elim (absurd kind) (absurd age)
      rw [gone]
      rfl

/-! ### Failed attempts (R151 to R155) -/

theorem failAttempt_counted {s : State} (t : Transmission) (offers : s.line.state = .joining ∨ s.line.state = .active)
    (below : (nextAttempt s.line.attempt t).count < 8) :
    s.failAttempt t = { s with line := { s.line with transmission := none, attempt := some (nextAttempt s.line.attempt t) } } :=
  (if_pos offers).trans (if_pos below)

theorem failAttempt_faulted {s : State} (t : Transmission) (offers : s.line.state = .joining ∨ s.line.state = .active)
    (limit : 8 ≤ (nextAttempt s.line.attempt t).count) :
    s.failAttempt t = { s with
      line := { s.line with
        state := .faulted, transmission := none, attempt := none, beaconTimer := none, faultTimer := some 10000 }
      unit := { s.unit with summary := s.unit.summary ||| BitVec.twoPow 16 12 } } :=
  (if_pos offers).trans (if_neg (Nat.not_lt.2 limit))

theorem nextAttempt_eq (a : Option Attempt) (t : Transmission) : nextAttempt a t = ⟨t.owner, t.queuedAt,
    match a with
    | some a => if a.owner = t.owner ∧ a.queuedAt = t.queuedAt then a.count + 1 else 1
    | none => 1⟩ := by
  unfold nextAttempt
  cases a with
  | none => rfl
  | some a =>
    dsimp only
    split
    case isTrue same => rw [← same.1, ← same.2]
    case isFalse => rfl

/-- Settles O53. -/
theorem failedAttemptsLeadToFaulted : Obligations.FailedAttemptsLeadToFaulted := by
  intro s r running
  have rejected : exec (.frameRejected r) s = .next (s.hearRejected (faulty r)) :=
    congrArg _ (State.whenRunning_running _ running)
  refine ⟨fun off => ?_, fun on => ⟨fun t sending unformed => ?_, fun quiet => ?_⟩, fun t f offers sending formed => ?_⟩
  · rw [rejected, State.hearRejected, if_pos off]
  · have silent : s.line.sends = false := by simp [LineController.sends, sending, unformed]
    rw [rejected, State.hearRejected, if_neg on]
    dsimp only [State.countRejected]
    rw [sending, silent]
    dsimp only
    rw [if_neg (by simp [unformed]), Bool.not_false, Bool.and_true]
    rfl
  · have silent : s.line.sends = false := by simp [LineController.sends, quiet]
    rw [rejected, State.hearRejected, if_neg on]
    dsimp only [State.countRejected]
    rw [quiet, silent]
    dsimp only
    rw [Bool.not_false, Bool.and_true]
    rfl
  · intro count
    have next : nextAttempt s.line.attempt t = ⟨t.owner, t.queuedAt, count⟩ := nextAttempt_eq _ _
    have fails : exec .readbackFailure s = .next (s.failAttempt t) := by
      refine congrArg _ ((State.whenRunning_running _ running).trans ?_)
      rw [State.readbackFails, sending]
      dsimp only
      rw [formed]
      rfl
    have hears : exec (.frameRejected r) s =
        .next (({ s with
          line := { s.line with droveSlot := false }
          unit := { s.unit with framesRejected := min (s.unit.framesRejected + 1) 65535 } } : State).failAttempt t) := by
      have on : s.line.state ≠ .off := by obtain h | h := offers <;> simp [h]
      have sends : s.line.sends = true := by simp [LineController.sends, sending, formed]
      rw [rejected, State.hearRejected, if_neg on]
      dsimp only [State.countRejected]
      rw [sending, sends]
      dsimp only
      rw [if_pos (by simp [formed]), Bool.not_true, Bool.and_false]
      rfl
    refine ⟨fun below => ?_, fun limit => ?_⟩
    · have few : (nextAttempt s.line.attempt t).count < 8 := by rw [next]; exact below
      rw [fails, hears, failAttempt_counted t offers few, ← next]
      exact ⟨rfl, congrArg _ (failAttempt_counted t offers few)⟩
    · have many : 8 ≤ (nextAttempt s.line.attempt t).count := by rw [next]; exact limit
      rw [fails, hears, failAttempt_faulted t offers many]
      exact ⟨rfl, congrArg _ (failAttempt_faulted t offers many)⟩

end Sys2Proof.Machine

end

section
/-! A frame of the own number that was not sent (R151, R153, R156). -/

namespace Sys2Proof.Machine

/-! ### What the delivery of an accepted frame keeps -/

/-- What holds after an accepted frame: the line controller as the frame leaves it, its flags still set, the configuration,
store and clock as they were. -/
structure Delivered (s : State) (f : HallFrame) (u : State) : Prop where
  line : u.line = (s.takeFrame f).line
  held : u.held = s.held
  flags : ∀ g, flagSet (s.takeFrame f).unit.summary g = true → flagSet u.unit.summary g = true
  configuration : u.configuration = s.configuration
  store : u.store = s.store
  clock : u.clock = s.clock

theorem Delivered.taken (s : State) (f : HallFrame) : Delivered s f (s.takeFrame f) :=
  have step := LineStep.takeFrame s f
  ⟨rfl, step.held, fun _ => id, step.configuration, step.store, step.clock⟩

theorem Delivered.lotStep {s u v : State} {f : HallFrame} (h : Delivered s f u) (k : LotStep u v) : Delivered s f v :=
  ⟨k.line.trans h.line, k.held.trans h.held, fun g set => k.flags g (h.flags g set), k.configuration.trans h.configuration,
    k.store.trans h.store, k.clock.trans h.clock⟩

theorem Delivered.settleLeaving {s u : State} {f : HallFrame} (h : Delivered s f u) : Delivered s f u.settleLeaving := by
  unfold State.settleLeaving
  split
  · exact ⟨h.line, h.held, h.flags, h.configuration, h.store, h.clock⟩
  · exact h

theorem Delivered.onHello {s u : State} {f : HallFrame} (h : Delivered s f u) (e : Nat) :
    Delivered s f (u.onHello e false) := by
  rw [onHello_other]
  split
  · exact h
  · exact ⟨h.line, h.held, fun g set => LotStep.setFlag_mono _ _ _ (h.flags g set), h.configuration, h.store, h.clock⟩

theorem acceptLotFrame_on {s : State} (on : s.line.state ≠ .off) (f : HallFrame) (deliver : State → State) :
    s.acceptLotFrame f deliver = if s.inService then (deliver (s.takeFrame f)).settleLeaving else s.takeFrame f := if_neg on

theorem Delivered.acceptLotFrame {s : State} (on : s.line.state ≠ .off) (f : HallFrame) {deliver : State → State}
    (steps : ∀ s, LotStep s (deliver s)) : Delivered s f (s.acceptLotFrame f deliver) := by
  rw [acceptLotFrame_on on]
  split
  · exact ((Delivered.taken s f).lotStep (steps _)).settleLeaving
  · exact .taken s f

section
variable {s : State} (sender lot : Nat) (g : Figures) (running : s.held = false) (on : s.line.state ≠ .off)
include running on

theorem exec_handover {b : HandoverBody} (short : b.queue.length ≤ 31) : exec (.handoverAccepted sender b) s =
    .next (if s.inService then
      ((s.takeFrame ⟨sender, .handover b⟩).onHandover sender b (s.isOwnFrame ⟨sender, .handover b⟩)).settleLeaving
      else s.takeFrame ⟨sender, .handover b⟩) :=
  congrArg Host.Outcome.next ((State.whenRunning_running (fun s => s.acceptHandover sender b) running).trans
    ((if_neg (Nat.not_lt.2 short)).trans (acceptLotFrame_on on _ _)))

theorem exec_reclaim : exec (.reclaimAccepted sender lot g) s = .next (if s.inService then
      ((s.takeFrame ⟨sender, .reclaim lot g⟩).onReclaim lot g (s.isOwnFrame ⟨sender, .reclaim lot g⟩)).settleLeaving
      else s.takeFrame ⟨sender, .reclaim lot g⟩) :=
  congrArg Host.Outcome.next ((State.whenRunning_running (fun s => s.acceptLotFrame ⟨sender, .reclaim lot g⟩
    fun s' => s'.onReclaim lot g (s.isOwnFrame ⟨sender, .reclaim lot g⟩)) running).trans (acceptLotFrame_on on _ _))

theorem exec_tally : exec (.tallyAccepted sender lot g) s = .next (if s.inService then
      ((s.takeFrame ⟨sender, .tally lot g⟩).onTally lot g).settleLeaving else s.takeFrame ⟨sender, .tally lot g⟩) :=
  congrArg Host.Outcome.next ((State.whenRunning_running (fun s => s.acceptLotFrame ⟨sender, .tally lot g⟩
    fun s' => s'.onTally lot g) running).trans (acceptLotFrame_on on _ _))

theorem exec_fetch : exec (.fetchAccepted sender lot) s = .next (if s.inService then
      ((s.takeFrame ⟨sender, .fetch lot⟩).onFetch sender lot (s.isOwnFrame ⟨sender, .fetch lot⟩)).settleLeaving
      else s.takeFrame ⟨sender, .fetch lot⟩) :=
  congrArg Host.Outcome.next ((State.whenRunning_running (fun s => s.acceptLotFrame ⟨sender, .fetch lot⟩
    fun s' => s'.onFetch sender lot (s.isOwnFrame ⟨sender, .fetch lot⟩)) running).trans (acceptLotFrame_on on _ _))

theorem exec_stall : exec (.stallAccepted sender lot) s = .next (if s.inService then
      ((s.takeFrame ⟨sender, .stall lot⟩).onStall lot).settleLeaving else s.takeFrame ⟨sender, .stall lot⟩) :=
  congrArg Host.Outcome.next ((State.whenRunning_running (fun s => s.acceptLotFrame ⟨sender, .stall lot⟩
    fun s' => s'.onStall lot) running).trans (acceptLotFrame_on on _ _))

theorem exec_notice : exec (.noticeAccepted sender lot g) s = .next (if s.inService then
      ((s.takeFrame ⟨sender, .notice lot g⟩).onNotice lot g (s.isOwnFrame ⟨sender, .notice lot g⟩)
        (s.ownFramePending ⟨sender, .notice lot g⟩)).settleLeaving
      else s.takeFrame ⟨sender, .notice lot g⟩) :=
  congrArg Host.Outcome.next ((State.whenRunning_running (fun s => s.acceptLotFrame ⟨sender, .notice lot g⟩
    fun s' => s'.onNotice lot g (s.isOwnFrame ⟨sender, .notice lot g⟩) (s.ownFramePending ⟨sender, .notice lot g⟩))
    running).trans (acceptLotFrame_on on _ _))

end

/-- Every accepted frame but an own one is such a delivery. -/
theorem exec_event {s : State} {f : HallFrame} (running : s.held = false) (on : s.line.state ≠ .off) (wf : f.wf)
    (other : s.isOwnFrame f = false) : ∃ u, exec f.event s = .next u ∧ Delivered s f u := by
  have acts (action : State → State) : (.next (s.whenRunning action) : Host.Outcome State Fault Refusal) = .next (action s) :=
    congrArg _ (State.whenRunning_running action running)
  obtain ⟨sender, body⟩ := f
  cases body with
  | handover b =>
    have short : ¬ 31 < b.queue.length := Nat.not_lt.2 wf.2.2.2.2.2.1
    exact ⟨_, (acts _).trans (congrArg _ (if_neg short)), .acceptLotFrame on _ fun s => LotStep.onHandover s _ _ _⟩
  | reclaim lot g => exact ⟨_, acts _, .acceptLotFrame on _ fun s => LotStep.onReclaim s _ _ _⟩
  | tally lot g => exact ⟨_, acts _, .acceptLotFrame on _ fun s => LotStep.onTally s _ _⟩
  | fetch lot => exact ⟨_, acts _, .acceptLotFrame on _ fun s => LotStep.onFetch s _ _ _⟩
  | stall lot => exact ⟨_, acts _, .acceptLotFrame on _ fun s => LotStep.onStall s _⟩
  | notice lot g => exact ⟨_, acts _, .acceptLotFrame on _ fun s => LotStep.onNotice s _ _ _ _⟩
  | hello e n =>
    refine ⟨_, exec_hello sender e n running on, ?_⟩
    rw [other]
    exact (Delivered.taken s _).onHello e
  | unknown c => exact ⟨_, (acts _).trans (congrArg _ (if_neg on)), .taken s _⟩

theorem exec_unknownKind {s : State} (sender : Nat) (c : Bytes) (running : s.held = false) (on : s.line.state ≠ .off) :
    exec (.unknownKindFrameAccepted sender c) s = .next (s.takeFrame ⟨sender, .unknown c⟩) :=
  congrArg Host.Outcome.next ((State.whenRunning_running
    (fun s => if s.line.state = .off then s else s.takeFrame ⟨sender, .unknown c⟩) running).trans (if_neg on))

/-! ### Deliveries that read neither the line controller nor the summary -/

/-- The action does the same whatever the line controller and the summary hold. -/
def Blind (deliver : State → State) : Prop :=
  ∀ (s : State) (l : LineController) (w : RatingUnit),
    deliver { s with line := l, unit := w } = { deliver s with line := l, unit := w }

theorem Blind.hearFigures (lot : Nat) (f : Figures) (m : Option Bool) : Blind (·.hearFigures lot f m) := by
  intro s l w
  have ref : ({ s with line := l, unit := w } : State).recordOf lot = s.recordOf lot := rfl
  simp only [State.hearFigures, ref]
  cases s.recordOf lot with
  | none => rfl
  | some ref => cases ref <;> rfl

theorem Blind.onNotice (lot : Nat) (f : Figures) : Blind (·.onNotice lot f false false) := by
  intro s l w
  have plan : ({ s with line := l, unit := w } : State).planLot lot = s.planLot lot := rfl
  simp only [State.onNotice, plan]
  cases s.planLot lot with
  | none => rfl
  | some d => exact Blind.hearFigures lot _ none s l w

theorem Blind.onStall (lot : Nat) : Blind (·.onStall lot) := by
  intro s l w
  have plan : ({ s with line := l, unit := w } : State).planLot lot = s.planLot lot := rfl
  have found : ({ s with line := l, unit := w } : State).findHome lot = s.findHome lot := rfl
  simp only [State.onStall, plan, found]
  cases s.planLot lot with
  | none => rfl
  | some d =>
    cases s.findHome lot with
    | none => rfl
    | some r =>
      obtain ⟨_, state, _⟩ := r
      cases state <;> rfl

theorem Blind.settleLeaving : Blind State.settleLeaving := by
  intro s l w
  have owns : ({ s with line := l, unit := w } : State).ownsForeign = s.ownsForeign := rfl
  simp only [State.settleLeaving, owns]
  split <;> rfl

/-- The lot records, ring and station state after a delivery are those after the same delivery in another state of the
line. -/
theorem Blind.accepted {deliver : State → State} (blind : Blind deliver) {s : State} {l m : LineController}
    {v w : RatingUnit} {x y : State}
    (hx : x = if s.inService then (deliver { s with line := l, unit := v }).settleLeaving else { s with line := l, unit := v })
    (hy : y = if s.inService then (deliver { s with line := m, unit := w }).settleLeaving else { s with line := m, unit := w }) :
    x.home = y.home ∧ x.table = y.table ∧ x.ring = y.ring ∧ x.station = y.station := by
  have after (l : LineController) (w : RatingUnit) : (deliver { s with line := l, unit := w }).settleLeaving =
      { (deliver s).settleLeaving with line := l, unit := w } := by rw [blind, Blind.settleLeaving]
  rw [after] at hx hy
  rw [hx, hy]
  cases s.inService <;> exact ⟨rfl, rfl, rfl, rfl⟩

/-- Settles O54. -/
theorem duplicateNumberFound : Obligations.DuplicateNumberFound := by
  intro s running on
  refine ⟨fun sender c quiet foreign => ?_, fun duplicate quiet => ⟨fun c => ?_, fun n => ?_⟩, fun single => ?_⟩
  · rw [exec_unknownKind sender c running on, takeFrame_heard (by simp [quiet]) foreign]
  · rw [exec_unknownKind s.own c running on, takeFrame_heardAgain (by simp [quiet]) rfl duplicate]
  · have other : ∀ t, s.line.transmission = some t → t.formed ≠ some ⟨s.own, .hello s.edition n⟩ := by simp [quiet]
    rw [exec_hello s.own s.edition n running on, isOwnFrame_other other, takeFrame_heardAgain other rfl duplicate,
      onHello_other]
    exact congrArg _ (if_pos rfl)
  · intro found
    refine ⟨fun t f sending formed => ?_, fun f wf own other => ?_⟩
    · refine congrArg _ ((State.whenRunning_running _ running).trans ?_)
      rw [State.readbackOther, sending]
      dsimp only
      rw [if_pos (by simp [formed]), State.enterDuplicate, if_neg (by exact single)]
      rfl
    · have taken : s.takeFrame f = found 0 := by
        rw [takeFrame_duplicated other own single]
        simp only [found, State.raise, setFlag, Flag.code, BitVec.ofNat_eq_ofNat, BitVec.or_zero]
      have notOwn : s.isOwnFrame f = false := isOwnFrame_other other
      obtain ⟨sender, body⟩ := f
      dsimp only at own
      subst own
      refine ⟨?_, fun c unknown => ?_, fun e n hello => ?_, fun station differs => ⟨fun lot g notice => ?_, fun lot stall => ?_⟩⟩
      · obtain ⟨u, acts, after⟩ := exec_event running on wf notOwn
        have line : u.line = s.line.duplicated s.own := after.line.trans (congrArg State.line taken)
        refine ⟨u, acts, line, after.flags _ ?_, ?_, after.configuration, after.store, after.clock⟩
        · rw [takeFrame_duplicated other rfl single, State.raise, flagSet_setFlag]
          simp
        · exact (attn_iff u).2 ⟨after.held.trans running, .inr (.inr (by rw [line]; rfl))⟩
      · cases unknown
        rw [exec_unknownKind s.own c running on, taken]
      · cases hello
        rw [exec_hello s.own e n running on, notOwn, taken, onHello_other]
        have edition : (found 0).edition = s.edition := rfl
        rw [edition]
        refine ⟨fun same => congrArg _ (if_pos same), fun differs => congrArg _ ((if_neg differs).trans ?_)⟩
        simp only [found, State.raise, setFlag, Flag.code, BitVec.ofNat_eq_ofNat, BitVec.or_zero]
      · cases notice
        have quiet : ∀ t, ({ s with line := { s.line with transmission := none } } : State).line.transmission = some t →
            t.formed ≠ some ⟨station, .notice lot g⟩ := nofun
        refine ⟨_, _, exec_notice s.own lot g running on, exec_notice station lot g running on,
          (Blind.onNotice lot g).accepted (s := s) (l := s.line.duplicated s.own) (m := s.line.heard station) (v := (found 0).unit)
            (w := s.unit) ?_ ?_⟩
        · rw [notOwn, State.ownFramePending, sentToEnd_none other, taken]
        · rw [isOwnFrame_other quiet, State.ownFramePending, sentToEnd_none quiet, takeFrame_heard quiet differs]
          rfl
      · cases stall
        have quiet : ∀ t, ({ s with line := { s.line with transmission := none } } : State).line.transmission = some t →
            t.formed ≠ some ⟨station, .stall lot⟩ := nofun
        refine ⟨_, _, exec_stall s.own lot running on, exec_stall station lot running on,
          (Blind.onStall lot).accepted (s := s) (l := s.line.duplicated s.own) (m := s.line.heard station) (v := (found 0).unit)
            (w := s.unit) ?_ ?_⟩
        · rw [taken]
        · rw [takeFrame_heard quiet differs]
          rfl

end Sys2Proof.Machine

end

section
/-! One lot's record and the frames that reach it: published figures, FETCH and STALL (R123 to R125, R129, R133, R139,
R140). -/

namespace Sys2Proof.Machine

/-! ### One record replaced -/

/-- The home record of a lot replaced. -/
def State.putHome (s : State) (lot : Nat) (r : HomeRecord) : State :=
  { s with home := s.home.map (fun x => if x.lot = lot then r else x) }

/-- An entry replaced. -/
def State.putEntry (s : State) (i : Nat) (e : LotEntry) : State := { s with table := s.table.set i e }

section
variable {s : State} {lot i : Nat} {r r' : HomeRecord} {e e' : LotEntry}

theorem putHome_putHome (s : State) (same : r.lot = lot) (r' : HomeRecord) :
    (s.putHome lot r).putHome lot r' = s.putHome lot r' := by
  simp only [State.putHome, List.map_map]
  congr 1
  refine List.map_congr_left fun x _ => ?_
  by_cases named : x.lot = lot <;> simp [named, same]

namespace State.OneHome

theorem lot_eq (h : s.OneHome lot r) : r.lot = lot := (findHome_some h.1).2

theorem update (h : s.OneHome lot r) (f : HomeRecord → HomeRecord) : s.updateHome lot f = s.putHome lot (f r) := by
  refine congrArg (fun home => { s with home := home }) (List.map_congr_left fun x inStore => ?_)
  by_cases named : x.lot = lot
  · rw [if_pos named, if_pos named, h.2 x inStore named]
  · rw [if_neg named, if_neg named]

theorem put (h : s.OneHome lot r) (same : r'.lot = lot) : (s.putHome lot r').OneHome lot r' := by
  refine ⟨?_, fun x inStore named => ?_⟩
  · have keeps : ∀ x, (fun _ : HomeRecord => r') x = r' := fun _ => rfl
    have found : (s.updateHome lot fun x => if x.lot = lot then r' else x).findHome lot = (s.findHome lot).map _ :=
      (findHome_updateHome s lot lot fun x => by by_cases k : x.lot = lot <;> simp [k, same]).trans (if_pos rfl)
    rw [h.update, h.1, Option.map_some, if_pos h.lot_eq] at found
    exact found
  · obtain ⟨y, -, rfl⟩ := List.mem_map.1 inStore
    by_cases k : y.lot = lot
    · rw [if_pos k]
    · rw [if_neg k] at named
      exact absurd named k

theorem queue (h : s.OneHome lot r) (kind : FrameKind) (n : Nat) :
    s.queue (.home lot) kind n = (s.putHome lot (r.queued ⟨kind, n, s.ordinal⟩)).nextOrdinal :=
  congrArg State.nextOrdinal (h.update fun r => r.queued ⟨kind, n, s.ordinal⟩)

theorem recordOf (h : s.OneHome lot r) : s.recordOf lot = some (.home lot) := by rw [State.recordOf, h.1]

theorem waitingAt (h : s.OneHome lot r) : s.waitingAt (.home lot) = r.waiting := by rw [State.waitingAt, h.1]

theorem owned (h : s.OneHome lot r) :
    s.owned (.home lot) = if r.holds then some (lot, r.figures, r.reclaimed) else none := by rw [State.owned, h.1]

theorem pendingFrame (h : s.OneHome lot r) : s.pendingFrame (.home lot) = r.frame := by rw [State.pendingFrame, h.1]; rfl

theorem clearFrame (h : s.OneHome lot r) : s.clearFrame (.home lot) = s.putHome lot { r with frame := none } :=
  h.update fun r => { r with frame := none }

theorem tallyDue (h : s.OneHome lot r) : s.tallyDue (.home lot) =
    (r.holds && s.pastCutOff lot && r.queue.isEmpty && queueable r.frame .tally) := by rw [State.tallyDue, h.1]

theorem testTally_due (h : s.OneHome lot r) (due : (r.holds && s.pastCutOff lot && r.queue.isEmpty && queueable r.frame .tally) = true) :
    s.testTally (.home lot) = (s.putHome lot (r.queued ⟨.tally, 0, s.ordinal⟩)).nextOrdinal := by
  rw [State.testTally, h.tallyDue, if_pos due, h.queue]

theorem testTally_not (h : s.OneHome lot r) (not : (r.holds && s.pastCutOff lot && r.queue.isEmpty && queueable r.frame .tally) = false) :
    s.testTally (.home lot) = s := by
  rw [State.testTally, h.tallyDue, not]
  rfl

theorem testTally_early (h : s.OneHome lot r) (early : s.pastCutOff lot = false) : s.testTally (.home lot) = s :=
  h.testTally_not (by rw [early]; simp)

end State.OneHome

theorem entry_at (h : s.table[i]? = some e) : s.entry i = e := by
  rw [State.entry, List.getD_eq_getElem?_getD, h]
  rfl

theorem updateEntry_at (h : s.table[i]? = some e) (f : LotEntry → LotEntry) : s.updateEntry i f = s.putEntry i (f e) :=
  congrArg (fun table => { s with table := table }) (modify_of_getElem? h f)

theorem at_putEntry (h : s.table[i]? = some e) (e' : LotEntry) : (s.putEntry i e').table[i]? = some e' :=
  List.getElem?_set_self (List.getElem?_eq_some_iff.1 h).1

theorem putEntry_putEntry (s : State) (i : Nat) (e e' : LotEntry) : (s.putEntry i e).putEntry i e' = s.putEntry i e' :=
  congrArg (fun table => { s with table := table }) (List.set_set ..)

theorem putEntry_self (h : s.table[i]? = some e) : s.putEntry i e = s := by
  obtain ⟨inTable, rfl⟩ := List.getElem?_eq_some_iff.1 h
  exact congrArg (fun table => { s with table := table }) (List.set_getElem_self inTable)

theorem queue_at (h : s.table[i]? = some e) (kind : FrameKind) (n : Nat) :
    s.queue (.entry i) kind n = (s.putEntry i (e.queued ⟨kind, n, s.ordinal⟩)).nextOrdinal :=
  congrArg State.nextOrdinal (updateEntry_at h fun e => e.queued ⟨kind, n, s.ordinal⟩)

theorem entryOf_putEntry (h : s.table[i]? = some e) (same : e'.lot = e.lot) (lot : Nat) :
    (s.putEntry i e').entryOf lot = s.entryOf lot := by
  obtain ⟨inTable, rfl⟩ := List.getElem?_eq_some_iff.1 h
  have lots : ∀ (l : List LotEntry) (k : Nat) (hk : k < l.length), e'.lot = l[k].lot →
      (l.set k e').findIdx? (fun e => e.lot == some lot) = l.findIdx? (fun e => e.lot == some lot) := by
    intro l
    induction l with
    | nil => exact fun k hk => absurd hk (Nat.not_lt_zero k)
    | cons x l ih =>
      intro k hk named
      cases k with
      | zero =>
        have named : e'.lot = x.lot := named
        simp only [List.set_cons_zero, List.findIdx?_cons, named]
      | succ k => simp only [List.set_cons_succ, List.findIdx?_cons, ih k (by simpa using hk) named]
  exact lots s.table i inTable same

namespace State.OneEntry

theorem recordOf (h : s.OneEntry lot i e) : s.recordOf lot = some (.entry i) := by
  obtain ⟨home, named, -⟩ := h
  rw [State.recordOf, home, named]
  rfl

theorem lot_eq (h : s.OneEntry lot i e) : e.lot = some lot := by rw [← entry_at h.2.2]; exact (entryOf_some h.2.1).2

theorem put (h : s.OneEntry lot i e) (same : e'.lot = some lot) : (s.putEntry i e').OneEntry lot i e' :=
  ⟨h.1, by rw [entryOf_putEntry h.2.2 (same.trans h.lot_eq.symm)]; exact h.2.1, at_putEntry h.2.2 e'⟩

theorem owned (h : s.OneEntry lot i e) :
    s.owned (.entry i) = if e.holds then some (lot, e.figures.getD .zero, e.reclaimed) else none := by
  rw [State.owned, entry_at h.2.2, h.lot_eq]

theorem tallyDue (h : s.OneEntry lot i e) : s.tallyDue (.entry i) =
    (e.holds && s.pastCutOff lot && e.queue.isEmpty && queueable e.frame .tally) := by
  rw [State.tallyDue, entry_at h.2.2]
  rw [h.lot_eq]

theorem testTally_due (h : s.OneEntry lot i e) (due : (e.holds && s.pastCutOff lot && e.queue.isEmpty && queueable e.frame .tally) = true) :
    s.testTally (.entry i) = (s.putEntry i (e.queued ⟨.tally, 0, s.ordinal⟩)).nextOrdinal := by
  rw [State.testTally, h.tallyDue, if_pos due, queue_at h.2.2]

theorem testTally_not (h : s.OneEntry lot i e) (not : (e.holds && s.pastCutOff lot && e.queue.isEmpty && queueable e.frame .tally) = false) :
    s.testTally (.entry i) = s := by
  rw [State.testTally, h.tallyDue, not]
  rfl

theorem testTally_early (h : s.OneEntry lot i e) (early : s.pastCutOff lot = false) : s.testTally (.entry i) = s :=
  h.testTally_not (by rw [early]; simp)

end State.OneEntry

theorem pendingFrame_at (h : s.table[i]? = some e) : s.pendingFrame (.entry i) = e.frame := by
  rw [State.pendingFrame, entry_at h]

theorem clearFrame_at (h : s.table[i]? = some e) : s.clearFrame (.entry i) = s.putEntry i { e with frame := none } :=
  updateEntry_at h fun e => { e with frame := none }

theorem waitingAt_at (h : s.table[i]? = some e) : s.waitingAt (.entry i) = e.waiting := by
  rw [State.waitingAt, entry_at h]

end

theorem pastCutOff_eq {s : State} {lot : Nat} {d : Departure} (plan : s.planLot lot = some d) :
    s.pastCutOff lot = decide (d.cutOff ≤ s.minute) := by rw [State.pastCutOff, plan]

theorem homeOf_eq {s : State} {lot : Nat} {d : Departure} (plan : s.planLot lot = some d) : s.homeOf lot = d.home := by
  rw [State.homeOf, plan]

theorem upTo_of_le {f c : Figures} (weight : f.weight ≤ c.weight) (litres : f.litres ≤ c.litres)
    (pieces : f.pieces ≤ c.pieces) : f.upTo c = f := by
  rw [Figures.upTo, min_eq_left weight, min_eq_left litres, min_eq_left pieces]

theorem HomeRecord.queued_of_queueable {r : HomeRecord} {f : PendingFrame} (h : queueable r.frame f.kind = true) :
    r.queued f = { r with frame := some f, handingOver := r.handingOver || f.kind == .handover } := by
  rw [HomeRecord.queued, queueFrame, if_pos h, h, Bool.true_and]

theorem HomeRecord.queued_of_not {r : HomeRecord} {f : PendingFrame} (h : queueable r.frame f.kind = false) :
    r.queued f = r := by
  rw [HomeRecord.queued, queueFrame, h, if_neg Bool.false_ne_true, Bool.false_and, Bool.or_false]

theorem LotEntry.queued_of_queueable {e : LotEntry} {f : PendingFrame} (h : queueable e.frame f.kind = true) :
    e.queued f = { e with
      frame := some f, handingOver := e.handingOver || f.kind == .handover
      publishTimer := if f.kind == .handover || f.kind == .tally then none else e.publishTimer } := by
  rw [LotEntry.queued, queueFrame, if_pos h, h, Bool.true_and, Bool.true_and]

theorem LotEntry.queued_of_not {e : LotEntry} {f : PendingFrame} (h : queueable e.frame f.kind = false) :
    e.queued f = e := by
  rw [LotEntry.queued, queueFrame, h, if_neg Bool.false_ne_true, Bool.false_and, Bool.or_false, Bool.false_and,
    if_neg Bool.false_ne_true]

/-! ### The frame taken, then the action, then LEAVING settled -/

/-- The end of an accepted lot frame: LEAVING is left for SERVING when no entry holds a lot (R144). -/
theorem settleLeaving_eq (s : State) : s.settleLeaving = { s with station := s.settled s.table } := by
  have owns : s.ownsForeign = true ↔ ¬ ∀ e ∈ s.table, e.state ≠ .owned ∧ e.state ≠ .ownedModified := by
    simp only [State.ownsForeign, List.any_eq_true, holds_iff]
    push_neg
    exact exists_congr fun e => and_congr_right fun _ => ⟨fun h k => h.resolve_left k, Classical.or_iff_not_imp_left.2⟩
  have iff : (s.station = .leaving ∧ (!s.ownsForeign) = true) ↔
      s.station = .leaving ∧ ∀ e ∈ s.table, e.state ≠ .owned ∧ e.state ≠ .ownedModified := by
    rw [Bool.not_eq_true', ← Bool.not_eq_true, owns, not_not]
  rw [State.settleLeaving, State.settled]
  by_cases h : s.station = .leaving ∧ (!s.ownsForeign) = true
  · rw [if_pos h, if_pos (iff.1 h)]
  · rw [if_neg h, if_neg (mt iff.2 h)]

/-- A station that holds a lot stays in LEAVING. -/
theorem settled_of_holds (s : State) {table : List LotEntry} {e : LotEntry} (inTable : e ∈ table)
    (holds : e.state = .owned ∨ e.state = .ownedModified) : s.settled table = s.station :=
  if_neg fun h => holds.elim (h.2 e inTable).1 (h.2 e inTable).2

theorem State.Acts.inService {s : State} (h : s.Acts) : s.inService = true := by
  rw [State.inService]
  obtain h | h | h := h <;> simp [h]

/-- The state at the delivery of another station's frame. -/
def State.hearing (s : State) (sender : Nat) : State := { s with line := s.line.heard sender }

section
variable {s : State} {sender : Nat} (h : s.Hears sender)
include h

theorem State.Hears.notSent (f : HallFrame) (t : Transmission) (sending : s.line.transmission = some t) :
    t.formed ≠ some f := by
  rw [h.2.2.2.1] at sending
  cases sending

theorem State.Hears.taken (body : FrameBody) : s.takeFrame ⟨sender, body⟩ = s.hearing sender :=
  takeFrame_heard (h.notSent _) h.2.2.2.2

theorem hears_handover {b : HandoverBody} (short : b.queue.length ≤ 31) : exec (.handoverAccepted sender b) s =
    .next ((s.hearing sender).onHandover sender b false).settleLeaving := by
  rw [exec_handover sender h.1 h.2.2.1 short, if_pos h.2.1.inService, h.taken, isOwnFrame_other (h.notSent _)]

theorem hears_reclaim (lot : Nat) (g : Figures) : exec (.reclaimAccepted sender lot g) s =
    .next ((s.hearing sender).onReclaim lot g false).settleLeaving := by
  rw [exec_reclaim sender lot g h.1 h.2.2.1, if_pos h.2.1.inService, h.taken, isOwnFrame_other (h.notSent _)]

theorem hears_tally (lot : Nat) (g : Figures) : exec (.tallyAccepted sender lot g) s =
    .next ((s.hearing sender).onTally lot g).settleLeaving := by
  rw [exec_tally sender lot g h.1 h.2.2.1, if_pos h.2.1.inService, h.taken]

theorem hears_fetch (lot : Nat) : exec (.fetchAccepted sender lot) s =
    .next ((s.hearing sender).onFetch sender lot false).settleLeaving := by
  rw [exec_fetch sender lot h.1 h.2.2.1, if_pos h.2.1.inService, h.taken, isOwnFrame_other (h.notSent _)]

theorem hears_stall (lot : Nat) : exec (.stallAccepted sender lot) s =
    .next ((s.hearing sender).onStall lot).settleLeaving := by
  rw [exec_stall sender lot h.1 h.2.2.1, if_pos h.2.1.inService, h.taken]

theorem hears_notice (lot : Nat) (g : Figures) : exec (.noticeAccepted sender lot g) s =
    .next ((s.hearing sender).onNotice lot g false false).settleLeaving := by
  rw [exec_notice sender lot g h.1 h.2.2.1, if_pos h.2.1.inService, h.taken, isOwnFrame_other (h.notSent _),
    State.ownFramePending, sentToEnd_none (h.notSent _)]

end

/-- The state at the delivery of this station's own frame, its record's pending frame cleared. -/
def State.delivering (s : State) (o : FrameOwner) : State :=
  ({ s with line := s.line.delivered s.own } : State).clearFrame o

/-- This station, in service and ACTIVE, has sent the pending frame of a record to its end. -/
structure State.Sends (s : State) (o : FrameOwner) (body : FrameBody) : Prop where
  running : s.held = false
  acts : s.Acts
  active : s.line.state = .active
  sending : ∃ t g, s.line.transmission = some t ∧ t.formed = some ⟨s.own, body⟩ ∧ t.owner = o ∧ s.stillOffered t = some g

theorem State.Sends.of_pending {s : State} {o : FrameOwner} {body : FrameBody} {g : PendingFrame} {kind : FrameKind} {q : Nat}
    (running : s.held = false) (acts : s.Acts) (active : s.line.state = .active)
    (sending : s.line.transmission = some ⟨o, kind, q, some ⟨s.own, body⟩⟩) (pending : s.pendingFrame o = some g)
    (same : g.kind = kind) (age : g.queuedAt = q) : s.Sends o body where
  running := running
  acts := acts
  active := active
  sending := ⟨_, g, sending, rfl, rfl, by rw [State.stillOffered, pending]; exact if_pos ⟨same, age⟩⟩

section
variable {s : State} {o : FrameOwner} {body : FrameBody} (h : s.Sends o body)
include h

theorem State.Sends.on : s.line.state ≠ .off := by rw [h.active]; nofun

theorem State.Sends.taken : s.takeFrame ⟨s.own, body⟩ = s.delivering o := by
  obtain ⟨t, g, sending, formed, rfl, offered⟩ := h.sending
  rw [takeFrame_own sending formed offered, if_pos h.active]
  rfl

theorem State.Sends.isOwnFrame : s.isOwnFrame ⟨s.own, body⟩ = true := by
  obtain ⟨t, g, sending, formed, -⟩ := h.sending
  rw [State.isOwnFrame, sentToEnd_some sending formed]
  rfl

theorem State.Sends.ownFramePending : s.ownFramePending ⟨s.own, body⟩ = true := by
  obtain ⟨t, g, sending, formed, -, offered⟩ := h.sending
  rw [State.ownFramePending, sentToEnd_some sending formed]
  dsimp only
  rw [offered]
  rfl

end

section
variable {s : State} {o : FrameOwner}

theorem sends_handover {b : HandoverBody} (h : s.Sends o (.handover b)) (short : b.queue.length ≤ 31) :
    exec (.handoverAccepted s.own b) s = .next ((s.delivering o).onHandover s.own b true).settleLeaving := by
  rw [exec_handover s.own h.running h.on short, if_pos h.acts.inService, h.taken, h.isOwnFrame]

theorem sends_reclaim {lot : Nat} {g : Figures} (h : s.Sends o (.reclaim lot g)) :
    exec (.reclaimAccepted s.own lot g) s = .next ((s.delivering o).onReclaim lot g true).settleLeaving := by
  rw [exec_reclaim s.own lot g h.running h.on, if_pos h.acts.inService, h.taken, h.isOwnFrame]

theorem sends_tally {lot : Nat} {g : Figures} (h : s.Sends o (.tally lot g)) :
    exec (.tallyAccepted s.own lot g) s = .next ((s.delivering o).onTally lot g).settleLeaving := by
  rw [exec_tally s.own lot g h.running h.on, if_pos h.acts.inService, h.taken]

theorem sends_fetch {lot : Nat} (h : s.Sends o (.fetch lot)) :
    exec (.fetchAccepted s.own lot) s = .next ((s.delivering o).onFetch s.own lot true).settleLeaving := by
  rw [exec_fetch s.own lot h.running h.on, if_pos h.acts.inService, h.taken, h.isOwnFrame]

theorem sends_notice {lot : Nat} {g : Figures} (h : s.Sends o (.notice lot g)) :
    exec (.noticeAccepted s.own lot g) s = .next ((s.delivering o).onNotice lot g true true).settleLeaving := by
  rw [exec_notice s.own lot g h.running h.on, if_pos h.acts.inService, h.taken, h.isOwnFrame, h.ownFramePending]

theorem delivering_home {lot : Nat} {r : HomeRecord} (h : s.OneHome lot r) :
    s.delivering (.home lot) = ({ s with line := s.line.delivered s.own } : State).putHome lot { r with frame := none } :=
  State.OneHome.clearFrame (s := { s with line := s.line.delivered s.own }) h

theorem delivering_entry {i : Nat} {e : LotEntry} (h : s.table[i]? = some e) :
    s.delivering (.entry i) = ({ s with line := s.line.delivered s.own } : State).putEntry i { e with frame := none } :=
  clearFrame_at (s := { s with line := s.line.delivered s.own }) h

end

end Sys2Proof.Machine

end

section
/-! Frames that reach one record: published figures, FETCH and STALL (R123 to R125, R129, R133, R139, R140). -/

namespace Sys2Proof.Machine

/-! ### Published figures (R129, R139, R140) -/

section
variable {s : State} {lot i : Nat} {r : HomeRecord} {e : LotEntry}

theorem hearFigures_home (h : s.OneHome lot r) (f : Figures) (m : Option Bool) :
    s.hearFigures lot f m = s.putHome lot (r.hears f s.fullFetch) := by
  rw [State.hearFigures, h.recordOf]
  exact h.update fun r => r.hears f s.fullFetch

theorem hearFigures_entry (h : s.OneEntry lot i e) (f : Figures) (m : Option Bool) :
    s.hearFigures lot f m = s.putEntry i (e.hears f m s.fullFetch) := by
  rw [State.hearFigures, h.recordOf]
  exact updateEntry_at h.2.2 fun e => e.hears f m s.fullFetch

theorem restart_eq (t full : Timer) : Timer.restart t full = if t = none then none else full := by
  rw [Timer.restart]
  cases t <;> rfl

theorem putHome_self (h : s.OneHome lot r) : s.putHome lot r = s := by
  refine congrArg (fun home => { s with home := home }) ((List.map_congr_left fun x inStore => ?_).trans (List.map_id _))
  split
  case isTrue named => rw [h.2 x inStore named]; rfl
  case isFalse => rfl

theorem settled_putEntry_same (s : State) {table : List LotEntry} (h : table[i]? = some e) {e' : LotEntry}
    (same : e'.holds = e.holds) : s.settled (table.set i e') = s.settled table := by
  obtain ⟨inTable, rfl⟩ := List.getElem?_eq_some_iff.1 h
  have lacks (e : LotEntry) : (e.state ≠ .owned ∧ e.state ≠ .ownedModified) ↔ ¬ e.holds = true := by
    rw [holds_iff, not_or]
  have iff : (∀ x ∈ table.set i e', ¬ x.holds = true) ↔ ∀ x ∈ table, ¬ x.holds = true := by
    refine ⟨fun all x inOld => ?_, fun all x inNew => ?_⟩
    · obtain ⟨k, hk, rfl⟩ := List.getElem_of_mem inOld
      by_cases at' : i = k
      · subst at'
        rw [← same]
        exact all e' (List.mem_set hk e')
      · have stays : (table.set i e')[k]? = some table[k] := by
          rw [List.getElem?_set_ne at', List.getElem?_eq_getElem hk]
        exact all _ (List.mem_of_getElem? stays)
    · obtain inOld | rfl := List.mem_or_eq_of_mem_set inNew
      · exact all x inOld
      · rw [same]
        exact all _ (List.getElem_mem inTable)
  simp only [State.settled, lacks, iff]

end

/-- What a third party's figures do, whichever frame carries them. -/
theorem heard_spec {s : State} {sender lot : Nat} {f : Figures} {m : Option Bool} {c : Instr}
    (acts : exec c s = .next ((s.hearing sender).hearFigures lot f m).settleLeaving) :
    (∀ r : HomeRecord, s.OneHome lot r →
      let after (r' : HomeRecord) : State := { s with
        line := s.line.heard sender, home := s.home.map (fun x => if x.lot = lot then r' else x)
        station := s.settled s.table }
      (r.state = .away ∨ r.state = .unknown →
        exec c s = .next (after { r with state := .away, lastSeen := some f })) ∧
      (r.state = .askingHome → exec c s = .next (after { r with
        lastSeen := some f
        fetchTimer := if r.fetchTimer = none then none else some s.config.fetchTimeout })) ∧
      (r.state = .atHome ∨ r.state = .ended → exec c s = .next { s with
        line := s.line.heard sender, station := s.settled s.table })) ∧
    (∀ (i : Nat) (e : LotEntry), s.OneEntry lot i e → exec c s = .next { s with
      line := s.line.heard sender, station := s.settled s.table
      table := s.table.set i
        (if e.state = .copy then { e with figures := some f, reclaimed := m.getD e.reclaimed }
        else if e.state = .asking then { e with
          figures := some f, reclaimed := m.getD e.reclaimed
          fetchTimer := if e.fetchTimer = none then none else some s.config.fetchTimeout }
        else e) }) := by
  refine ⟨fun r h => ?_, fun i e h => ?_⟩
  · have home : (s.hearing sender).OneHome lot r := h
    rw [acts, hearFigures_home home, settleLeaving_eq]
    refine ⟨fun state => ?_, fun state => ?_, fun state => ?_⟩
    · have hears : r.hears f (s.hearing sender).fullFetch = { r with state := .away, lastSeen := some f } := by
        obtain state | state := state <;> rw [HomeRecord.hears, state]
      rw [hears]
      rfl
    · have hears : r.hears f (s.hearing sender).fullFetch = { r with
          lastSeen := some f, fetchTimer := if r.fetchTimer = none then none else some s.config.fetchTimeout } := by
        rw [HomeRecord.hears, state, ← restart_eq]
        rfl
      rw [hears]
      rfl
    · have hears : r.hears f (s.hearing sender).fullFetch = r := by
        obtain state | state := state <;> rw [HomeRecord.hears, state]
      rw [hears, putHome_self home]
      rfl
  · have entry : (s.hearing sender).OneEntry lot i e := h
    have hears : e.hears f m (s.hearing sender).fullFetch =
        if e.state = .copy then { e with figures := some f, reclaimed := m.getD e.reclaimed }
        else if e.state = .asking then { e with
          figures := some f, reclaimed := m.getD e.reclaimed
          fetchTimer := if e.fetchTimer = none then none else some s.config.fetchTimeout }
        else e := by
      rw [LotEntry.hears, ← restart_eq]
      cases e.state <;> rfl
    have holds : (e.hears f m (s.hearing sender).fullFetch).holds = e.holds := by
      rw [LotEntry.hears, LotEntry.holds, LotEntry.holds]
      cases state : e.state <;> simp [state]
    rw [acts, hearFigures_entry entry, settleLeaving_eq, ← hears]
    refine congrArg Host.Outcome.next ?_
    have station := settled_putEntry_same s h.2.2 holds
    simp only [State.putEntry, State.hearing] at station ⊢
    rw [← station]
    rfl

theorem noticeSent_entry {s : State} {lot i : Nat} {e : LotEntry} (h : s.OneEntry lot i e) (holds : e.holds = true)
    (before : s.pastCutOff lot = false) (f : Figures) : s.noticeSent lot f = s.putEntry i
      (if e.figures = some f then { e with state := .owned, publishTimer := none } else { e with publishTimer := s.fullPublish }) := by
  rw [State.noticeSent, h.2.1]
  dsimp only
  rw [entry_at h.2.2, if_pos holds, updateEntry_at h.2.2]
  have entry : (s.putEntry i (if e.figures = some f then { e with state := .owned, publishTimer := none }
      else { e with publishTimer := s.fullPublish })).OneEntry lot i _ := h.put (by split <;> exact h.lot_eq)
  exact entry.testTally_early before

/-- Settles O57. -/
theorem publishedFiguresAreHeard : Obligations.PublishedFiguresAreHeard := by
  intro s sender lot f d plan weight litres pieces
  have whole : f.upTo d.capacity = f := upTo_of_le weight litres pieces
  refine ⟨fun c hears which => ?_, fun i e g q running acts active one named state frame kind age before sending => ?_⟩
  · have planned : (s.hearing sender).planLot lot = some d := plan
    obtain rfl | ⟨b, rfl, rfl, rfl, elsewhere, short⟩ := which
    · have acts := hears_notice hears lot f
      rw [State.onNotice, planned] at acts
      dsimp only at acts
      rw [if_neg Bool.false_ne_true, whole] at acts
      obtain ⟨home, entry⟩ := heard_spec acts
      exact ⟨home, fun i e h => ⟨_, entry i e h, fun _ => rfl, nofun⟩⟩
    · have acts := hears_handover hears short
      have notHere : ¬ (b.recipient = (s.hearing sender).own ∧ b.recipient ≠ sender) := fun h => elsewhere h.1
      rw [State.onHandover, planned] at acts
      dsimp only at acts
      rw [if_neg Bool.false_ne_true, if_neg notHere, whole] at acts
      obtain ⟨home, entry⟩ := heard_spec acts
      refine ⟨home, fun i e h => ⟨_, entry i e h, nofun, fun b' same => ?_⟩⟩
      cases same
      rfl
  · have sends : s.Sends (.entry i) (.notice lot f) :=
      .of_pending running acts active sending ((pendingFrame_at one.2.2).trans frame) kind age
    have entry : (({ s with line := s.line.delivered s.own } : State).putEntry i { e with frame := none }).OneEntry lot i
        { e with frame := none } := State.OneEntry.put (s := { s with line := s.line.delivered s.own }) one named
    have planned : (({ s with line := s.line.delivered s.own } : State).putEntry i { e with frame := none }).planLot lot =
        some d := plan
    have early : (({ s with line := s.line.delivered s.own } : State).putEntry i { e with frame := none }).pastCutOff lot =
        false := by
      rw [pastCutOff_eq planned]
      exact decide_eq_false (Nat.not_le.2 before)
    have holds : ({ e with frame := none } : LotEntry).holds = true := (holds_iff _).2 (.inr state)
    have sent := sends_notice sends
    rw [delivering_entry one.2.2, State.onNotice, planned] at sent
    dsimp only at sent
    rw [if_pos rfl, if_pos rfl, noticeSent_entry entry holds early, putEntry_putEntry, settleLeaving_eq] at sent
    intro line
    have inTable := (List.getElem?_eq_some_iff.1 one.2.2).1
    refine ⟨fun same => sent.trans (congrArg _ ?_), fun differs => sent.trans (congrArg _ ?_)⟩
    · rw [if_pos same]
      have station := settled_of_holds s (List.mem_set inTable { e with state := .owned, publishTimer := none, frame := none })
        (.inl rfl)
      exact congrArg (fun st => { s with
        line := line, station := st
        table := s.table.set i { e with state := .owned, publishTimer := none, frame := none } }) station
    · rw [if_neg differs]
      have station := settled_of_holds s (List.mem_set inTable
        { e with publishTimer := some (s.config.publishDelay * 1000), frame := none }) (.inr state)
      exact congrArg (fun st => { s with
        line := line, station := st
        table := s.table.set i { e with publishTimer := some (s.config.publishDelay * 1000), frame := none } }) station

/-! ### FETCH (R123 to R125) -/

theorem takesFetch_iff (own requester : Nat) (frame : Option PendingFrame) (queue : List Nat) :
    takesFetch own requester frame queue = true ↔
      (∀ g, frame = some g → g.kind ≠ .tally) ∧ requester ≠ own ∧ requester ∉ queue := by
  cases frame <;> simp [takesFetch, and_assoc]

section
variable {s : State} {lot i n : Nat} {r : HomeRecord} {e : LotEntry}

theorem ownerFetched_home (h : s.OneHome lot r) (n : Nat) : s.ownerFetched (.home lot) n =
    if r.holds && takesFetch s.own n r.frame r.queue then
      (s.putHome lot (({ r with queue := r.queue ++ [n] } : HomeRecord).queued
        ⟨.handover, (r.queue ++ [n]).headD n, s.ordinal⟩)).nextOrdinal
    else s := by
  have joined : (s.putHome lot { r with queue := r.queue ++ [n] }).OneHome lot { r with queue := r.queue ++ [n] } :=
    h.put h.lot_eq
  rw [State.ownerFetched, h.1]
  dsimp only
  rw [h.update, joined.queue, putHome_putHome]
  · rfl
  · exact h.lot_eq

theorem ownerFetched_entry (h : s.table[i]? = some e) (n : Nat) : s.ownerFetched (.entry i) n =
    if e.holds && takesFetch s.own n e.frame e.queue then
      (s.putEntry i (({ e with queue := e.queue ++ [n] } : LotEntry).queued
        ⟨.handover, (e.queue ++ [n]).headD n, s.ordinal⟩)).nextOrdinal
    else s := by
  rw [State.ownerFetched, entry_at h]
  rw [updateEntry_at h, queue_at (at_putEntry h _), putEntry_putEntry]
  rfl

theorem onFetch_eq {ref : RecordRef} {d : Departure} (plan : s.planLot lot = some d) (record : s.recordOf lot = some ref)
    (sender : Nat) (mine : Bool) : s.onFetch sender lot mine =
      if mine then (s.ownerFetched ref sender).fetchSent lot else s.ownerFetched ref sender := by
  rw [State.onFetch, plan, record]

/-- A station's own FETCH joins no queue of its own. -/
theorem ownerFetched_own (s : State) (ref : RecordRef) {n : Nat} (own : n = s.own) : s.ownerFetched ref n = s := by
  subst own
  have never (frame : Option PendingFrame) (queue : List Nat) : takesFetch s.own s.own frame queue = false :=
    Bool.eq_false_iff.2 fun h => ((takesFetch_iff _ _ _ _).1 h).2.1 rfl
  cases ref with
  | home lot =>
    rw [State.ownerFetched]
    split
    · rfl
    · rw [never, Bool.and_false]; rfl
  | entry i =>
    rw [State.ownerFetched, never, Bool.and_false]
    rfl

theorem fetchSent_home (h : s.OneHome lot r) (asking : r.state = .askingHome) :
    s.fetchSent lot = s.putHome lot { r with fetchTimer := s.fullFetch } := by
  rw [State.fetchSent, h.recordOf]
  dsimp only
  rw [h.update, if_pos asking]

theorem fetchSent_entry (h : s.OneEntry lot i e) (asking : e.state = .asking) :
    s.fetchSent lot = s.putEntry i { e with fetchTimer := s.fullFetch } := by
  rw [State.fetchSent, h.recordOf]
  dsimp only
  rw [updateEntry_at h.2.2, if_pos asking]

/-! ### STALL (R133) -/

theorem askHome_eq (h : s.OneHome lot r) : s.askHome lot =
    (s.putHome lot (({ r with state := .askingHome, attempts := 0 } : HomeRecord).queued ⟨.fetch, 0, s.ordinal⟩)).nextOrdinal := by
  have asking : (s.putHome lot { r with state := .askingHome, attempts := 0 }).OneHome lot
      { r with state := .askingHome, attempts := 0 } := h.put h.lot_eq
  rw [State.askHome, h.update, asking.queue, putHome_putHome]
  · rfl
  · exact h.lot_eq

theorem askEntry_eq (h : s.table[i]? = some e) : s.askEntry i = (s.putEntry i
    (({ e with state := .asking, attempts := 0, fetchTimer := none } : LotEntry).queued ⟨.fetch, 0, s.ordinal⟩)).nextOrdinal := by
  rw [State.askEntry, updateEntry_at h, queue_at (at_putEntry h _), putEntry_putEntry]
  rfl

theorem onStall_home {d : Departure} (plan : s.planLot lot = some d) (h : s.OneHome lot r) :
    s.onStall lot = if r.state = .away ∨ r.state = .unknown then s.askHome lot else s := by
  rw [State.onStall, plan, h.1]
  dsimp only
  cases r.state <;> rfl

end

/-- Settles O60. -/
theorem fetchAndStallReachTheRecord : Obligations.FetchAndStallReachTheRecord := by
  intro s sender lot d plan
  refine ⟨fun r hears one => ?_, fun i e hears one => ?_, fun g q running acts active kind age =>
    ⟨fun i e one asking frame sending => ?_, fun r one asking frame sending => ?_⟩⟩
  · have home : (s.hearing sender).OneHome lot r := one
    have planned : (s.hearing sender).planLot lot = some d := plan
    have fetched := hears_fetch hears lot
    have stalled := hears_stall hears lot
    rw [onFetch_eq planned home.recordOf, if_neg Bool.false_ne_true, ownerFetched_home home, settleLeaving_eq] at fetched
    rw [onStall_home planned home, settleLeaving_eq] at stalled
    have takes (queue : sender ∉ r.queue) (notTally : ∀ g, r.frame = some g → g.kind ≠ .tally) (atHome : r.state = .atHome) :
        (r.holds && takesFetch (s.hearing sender).own sender r.frame r.queue) = true := by
      exact Bool.and_eq_true_iff.2 ⟨by rw [HomeRecord.holds, atHome]; rfl,
        (takesFetch_iff _ _ _ _).2 ⟨notTally, hears.2.2.2.2, queue⟩⟩
    refine ⟨fun atHome frame queue => ?_, fun g atHome frame kind queue => ?_, fun passes => ?_, fun away frame => ?_,
      fun g away frame kind => ?_, fun here => ?_⟩
    · rw [if_pos (takes queue (by rw [frame]; nofun) atHome), HomeRecord.queued_of_queueable (by rw [frame]; rfl)] at fetched
      rw [fetched]
      simp only [beq_self_eq_true, Bool.or_true]
      rfl
    · rw [if_pos (takes queue (fun g' same => by rw [frame] at same; cases same; rw [kind]; nofun) atHome),
        HomeRecord.queued_of_not (by rw [frame, queueable, kind]; rfl)] at fetched
      exact fetched
    · rw [if_neg] at fetched
      · exact fetched
      · intro taken
        obtain ⟨holds, fetch⟩ := Bool.and_eq_true_iff.1 taken
        obtain ⟨notTally, -, queue⟩ := (takesFetch_iff _ _ _ _).1 fetch
        obtain notHome | inQueue | ⟨g, frame, kind⟩ := passes
        · exact notHome (by simpa [HomeRecord.holds] using holds)
        · exact queue inQueue
        · exact notTally g frame kind
    · rw [if_pos away, askHome_eq home, HomeRecord.queued_of_queueable (by rw [frame]; rfl)] at stalled
      rw [stalled]
      simp only [show (FrameKind.fetch == FrameKind.handover) = false from rfl, Bool.or_false]
      rfl
    · rw [if_pos away, askHome_eq home, HomeRecord.queued_of_not (by rw [frame, queueable, kind]; rfl)] at stalled
      exact stalled
    · rw [if_neg (by obtain h | h | h := here <;> simp [h])] at stalled
      exact stalled
  · have entry : (s.hearing sender).OneEntry lot i e := one
    have planned : (s.hearing sender).planLot lot = some d := plan
    have fetched := hears_fetch hears lot
    rw [onFetch_eq planned entry.recordOf, if_neg Bool.false_ne_true, ownerFetched_entry entry.2.2, settleLeaving_eq] at fetched
    have takes (queue : sender ∉ e.queue) (notTally : ∀ g, e.frame = some g → g.kind ≠ .tally)
        (holds : e.state = .owned ∨ e.state = .ownedModified) :
        (e.holds && takesFetch (s.hearing sender).own sender e.frame e.queue) = true := by
      exact Bool.and_eq_true_iff.2 ⟨(holds_iff e).2 holds, (takesFetch_iff _ _ _ _).2 ⟨notTally, hears.2.2.2.2, queue⟩⟩
    refine ⟨fun holds free queue => ?_, fun g holds frame kind queue => ?_, fun lacks => ?_⟩
    · have notTally : ∀ g, e.frame = some g → g.kind ≠ .tally := by
        obtain none | ⟨g, frame, kind⟩ := free
        · rw [none]; nofun
        · intro g' same
          rw [frame] at same
          cases same
          rw [kind]
          nofun
      have queueable : queueable e.frame .handover = true := by
        obtain none | ⟨g, frame, kind⟩ := free
        · rw [none]; rfl
        · rw [frame, queueable, kind]; rfl
      rw [if_pos (takes queue notTally holds), LotEntry.queued_of_queueable queueable] at fetched
      rw [fetched]
      simp only [beq_self_eq_true, Bool.or_true, Bool.true_or, if_true]
      have station := settled_putEntry_same s one.2.2 (e' := { e with
        queue := e.queue ++ [sender], handingOver := true, publishTimer := none
        frame := some ⟨.handover, (e.queue ++ [sender]).headD sender, s.ordinal⟩ }) rfl
      rw [← station]
      rfl
    · rw [if_pos (takes queue (fun g' same => by rw [frame] at same; cases same; rw [kind]; nofun) holds),
        LotEntry.queued_of_not (by rw [frame, queueable, kind]; rfl)] at fetched
      rw [fetched, ← settled_putEntry_same s one.2.2 (e' := { e with queue := e.queue ++ [sender] }) rfl]
      rfl
    · rw [if_neg] at fetched
      · exact fetched
      · intro taken
        have holds := (holds_iff e).1 (Bool.and_eq_true_iff.1 taken).1
        exact holds.elim lacks.1 lacks.2
  · have sends : s.Sends (.entry i) (.fetch lot) :=
      .of_pending running acts active sending ((pendingFrame_at one.2.2).trans frame) kind age
    have sent := sends_fetch sends
    have entry : (({ s with line := s.line.delivered s.own } : State).putEntry i { e with frame := none }).OneEntry lot i
        { e with frame := none } := State.OneEntry.put (s := { s with line := s.line.delivered s.own }) one one.lot_eq
    have planned : (({ s with line := s.line.delivered s.own } : State).putEntry i { e with frame := none }).planLot lot =
        some d := plan
    rw [delivering_entry one.2.2, onFetch_eq planned entry.recordOf, if_pos rfl,
      ownerFetched_own _ _ (n := s.own) (by rfl), fetchSent_entry entry asking, putEntry_putEntry, settleLeaving_eq] at sent
    rw [← settled_putEntry_same s one.2.2 (e' := { e with fetchTimer := some s.config.fetchTimeout, frame := none }) rfl]
    exact sent
  · have sends : s.Sends (.home lot) (.fetch lot) :=
      .of_pending running acts active sending (one.pendingFrame.trans frame) kind age
    have sent := sends_fetch sends
    have home : (({ s with line := s.line.delivered s.own } : State).putHome lot { r with frame := none }).OneHome lot
        { r with frame := none } := State.OneHome.put (s := { s with line := s.line.delivered s.own }) one one.lot_eq
    have planned : (({ s with line := s.line.delivered s.own } : State).putHome lot { r with frame := none }).planLot lot =
        some d := plan
    rw [delivering_home one, onFetch_eq planned home.recordOf, if_pos rfl,
      ownerFetched_own _ _ (n := s.own) (by rfl), fetchSent_home home asking, putHome_putHome _ (by exact one.lot_eq), settleLeaving_eq] at sent
    exact sent

end Sys2Proof.Machine

end

section
/-! How dispatch requests end: labelled, refused, or labelled Dispatch pending (R72, R86, R87, R109, R166, R167). -/

namespace Sys2Proof.Machine

/-! ### Labelled members -/

/-- What labellings leave: each member completed with its number, every other slot as it was, one event of the counter for
each, the sequence counter up by their count. -/
structure State.Labels (s t : State) (members : List Nat) (d : DispatchFields) (consignment : Bytes) (n : Nat) : Prop where
  labelled : ∀ k i, members[k]? = some i → ∃ p, (s.slot i).record = some (.parcel p) ∧
    t.slot i = (s.slot i).completed p (some d) (.labelled (trackingNumber s.config (n + k)) consignment)
  others : ∀ j, j ∉ members → t.slot j = s.slot j
  rest : t = { s with
    ring := { s.ring with slots := t.ring.slots }
    unit := { s.unit with labelsIssued := countUp^[members.length] s.unit.labelsIssued }
    sequence := some (n + members.length) }
  length : t.ring.slots.length = s.ring.slots.length

theorem labels_labelRequest {s : State} {q : Request} {n : Nat} (all : s.AllSeeking q.members) (counter : s.sequence = some n)
    (d : DispatchFields) : s.Labels (s.labelRequest q d) q.members d (s.consignmentNumber q n) n := by
  have may := all.mayComplete (labellings_slots s.config d (s.consignmentNumber q n) n q.members)
  have labelled : s.labelRequest q d =
      (s.completeAll (labellings s.config d (s.consignmentNumber q n) n q.members)).advanceSequence q.members.length := by
    rw [State.labelRequest, counter, ← labelMembers_eq all]
    rfl
  rw [labelled]
  refine ⟨fun k i at' => ?_, fun j out => ?_, ?_, length_completeAll _ _⟩
  · have member := labellings_getElem? s.config d (s.consignmentNumber q n) n q.members k
    rw [at'] at member
    exact slot_completeAll may (List.mem_of_getElem? member)
  · exact slot_completeAll_other s _ (by rwa [labellings_slots])
  · have whole := completeAll_eq may
    rw [counting_labelled _ (labellings_labelled _ _ _ _ _), labellings_length] at whole
    rw [State.advanceSequence, whole]
    simp only [counter, Option.map_some]

/-! ### Members refused with flags -/

/-- Members that end refused: `State.AllRefused` of the requests that they make up. -/
def State.MembersRefused (s t : State) (members : List Nat) (why : Reason) (fs : List Flag) : Prop :=
  (∀ j ∈ members, Slot.RefusedAs (s.slot j) (t.slot j) why) ∧
  (∀ j, j ∉ members → t.slot j = s.slot j) ∧
  t.sequence = s.sequence ∧ t.unit.labelsIssued = s.unit.labelsIssued ∧
  (s.unit.recordsRefused ≤ 65535 →
    t.unit.recordsRefused = min (s.unit.recordsRefused + members.length) 65535) ∧
  SetExactly s.unit.summary t.unit.summary fs ∧ s.SameAround t

theorem allRefused_iff (s t : State) (qs : List Request) (why : Reason) (fs : List Flag) :
    s.AllRefused t qs why fs ↔ s.MembersRefused t (qs.flatMap (·.members)) why fs := Iff.rfl

theorem allRefused_single (s t : State) (q : Request) (why : Reason) (fs : List Flag) :
    s.AllRefused t [q] why fs ↔ s.MembersRefused t q.members why fs := by
  rw [allRefused_iff, List.flatMap_singleton]

/-- The home store, lot table, line, station state and order numbers stay. -/
structure LotsStay (s t : State) : Prop where
  home : t.home = s.home
  table : t.table = s.table
  line : t.line = s.line
  station : t.station = s.station
  ordinal : t.ordinal = s.ordinal

theorem LotsStay.refl (s : State) : LotsStay s s := ⟨rfl, rfl, rfl, rfl, rfl⟩

theorem LotsStay.trans {s t u : State} (h : LotsStay s t) (k : LotsStay t u) : LotsStay s u :=
  ⟨k.home.trans h.home, k.table.trans h.table, k.line.trans h.line, k.station.trans h.station, k.ordinal.trans h.ordinal⟩

/-- Flags raised, then members refused. -/
theorem membersRefused_raised {s v t : State} {members : List Nat} {why : Reason} {fs : List Flag} {w : BitVec 16}
    (raised : v = { s with unit := { s.unit with summary := w } }) (flags : SetExactly s.unit.summary w fs)
    (refuses : v.Refuses t members why) : s.MembersRefused t members why fs ∧ LotsStay s t := by
  subst raised
  have unit := refuses.unit
  refine ⟨⟨fun j member => (refuses.refused j member).1, refuses.others, ?_, ?_, fun bound => ?_, ?_, ?_⟩, ?_⟩
  · rw [refuses.rest]
  · rw [unit]
  · rw [unit]
    exact countUp_iterate (.inl bound)
  · rw [unit]
    exact flags
  · refine ⟨refuses.ring, by rw [unit], ?_⟩
    rw [refuses.rest]
    exact ⟨rfl, rfl, rfl, rfl, rfl, rfl, rfl, rfl⟩
  · rw [refuses.rest]
    exact ⟨rfl, rfl, rfl, rfl, rfl⟩

theorem allSeeking_raise {s : State} {members : List Nat} (all : s.AllSeeking members) (f : Flag) :
    (s.raise f).AllSeeking members := ⟨all.nodup, all.seeking⟩

/-- A request that the counter does not cover (R87, R167). -/
theorem refuseNoNumber_spec {s : State} {q : Request} (all : s.AllSeeking q.members) :
    s.MembersRefused (s.refuseNoNumber q) q.members .noNumber [.noNumber] ∧ LotsStay s (s.refuseNoNumber q) :=
  membersRefused_raised rfl (setExactly_setFlag _ _) (refuses_refuseSeeking (allSeeking_raise all _) _ _)

theorem canCover_iff {s : State} {n k : Nat} (counter : s.sequence = some n) : s.canCover k = true ↔ n + k ≤ 100000 := by
  rw [State.canCover, counter]
  exact decide_eq_true_iff

/-- Labelled Dispatch pending: no lot (R86, R109). -/
theorem pending_of_labels {s t : State} {q : Request} {n : Nat} {consignment : Bytes}
    (labels : (s.raise .noDispatch).Labels t q.members (DispatchFields.routeOnly q.route true) consignment n) :
    s.Pending t q n ∧ LotsStay s t := by
  have unit : t.unit = _ := congrArg State.unit labels.rest
  refine ⟨⟨fun k j at' => ?_, labels.others, ?_, ?_, fun bound => ?_, ?_, congrArg State.ring labels.rest, ?_, ?_⟩, ?_⟩
  · obtain ⟨p, record, slot⟩ := labels.labelled k j at'
    rw [slot]
    exact ⟨rfl, rfl, rfl, _, rfl, rfl, rfl, rfl, rfl, rfl, rfl, rfl⟩
  · rw [labels.rest]
  · rw [unit]
    rfl
  · rw [unit]
    exact countUp_iterate (.inl bound)
  · rw [unit]
    exact setExactly_setFlag _ _
  · rw [unit]
    rfl
  · rw [labels.rest]
    exact ⟨rfl, rfl, rfl, rfl, rfl, rfl, rfl, rfl⟩
  · rw [labels.rest]
    exact ⟨rfl, rfl, rfl, rfl, rfl⟩

/-- No candidate remains: the three ends of a request (R86, R87, R109). -/
theorem settleNoDispatch_spec {s : State} {q : Request} (all : s.AllSeeking q.members) :
    s.Undelivered (s.settleNoDispatch q) q ∧ LotsStay s (s.settleNoDispatch q) := by
  have raised := allSeeking_raise all .noDispatch
  have unmasked (mask : s.config.noDispatchMask = false) : s.settleNoDispatch q =
      (s.raise .noDispatch).refuseSeeking q.members (some (DispatchFields.routeOnly q.route false)) .noDispatch :=
    if_neg (by rw [show (s.raise .noDispatch).config = s.config from rfl, mask]; exact Bool.false_ne_true)
  have masked (mask : s.config.noDispatchMask = true) : s.settleNoDispatch q =
      if (s.raise .noDispatch).canCover q.pieces then
        (s.raise .noDispatch).labelRequest q (DispatchFields.routeOnly q.route true)
      else (s.raise .noDispatch).refuseNoNumber q := if_pos mask
  have refused (mask : s.config.noDispatchMask = false) := membersRefused_raised (s := s) rfl (setExactly_setFlag _ .noDispatch)
    (refuses_refuseSeeking raised (some (DispatchFields.routeOnly q.route false)) .noDispatch)
  have uncovered : s.MembersRefused ((s.raise .noDispatch).refuseNoNumber q) q.members .noNumber [.noDispatch, .noNumber] ∧
      LotsStay s ((s.raise .noDispatch).refuseNoNumber q) :=
    membersRefused_raised rfl ((setExactly_setFlag _ .noDispatch).trans (setExactly_setFlag _ .noNumber))
      (refuses_refuseSeeking (allSeeking_raise raised _) _ _)
  refine ⟨⟨fun mask => ?_, fun n mask counter => ?_⟩, ?_⟩
  · rw [allRefused_single, unmasked mask]
    exact (refused mask).1
  · have covers := canCover_iff (s := s.raise .noDispatch) (k := q.pieces) counter
    rw [masked mask, allRefused_single]
    refine ⟨fun covered => ?_, fun short => ?_⟩
    · rw [if_pos (covers.2 covered)]
      exact (pending_of_labels (labels_labelRequest raised counter _)).1
    · rw [if_neg (fun h => absurd (covers.1 h) (Nat.not_le.2 short))]
      exact uncovered.1
  · cases mask : s.config.noDispatchMask with
    | false => rw [unmasked mask]; exact (refused mask).2
    | true =>
      rw [masked mask]
      split
      case isTrue covered =>
        cases counter : s.sequence with
        | none =>
          rw [State.canCover, show (s.raise .noDispatch).sequence = none from counter] at covered
          cases covered
        | some n => exact (pending_of_labels (labels_labelRequest raised counter _)).2
      case isFalse => exact uncovered.2

/-! ### Requests refused one after another -/

theorem State.MembersRefused.nil (s : State) (why : Reason) : s.MembersRefused s [] why [] :=
  ⟨fun _ h => absurd h List.not_mem_nil, fun _ _ => rfl, rfl, rfl, fun bound => (min_eq_left bound).symm,
    setExactly_refl _, rfl, rfl, rfl, rfl, rfl, rfl, rfl, rfl, rfl, rfl⟩

theorem State.SameAround.trans {s t u : State} (h : s.SameAround t) (k : t.SameAround u) : s.SameAround u := by
  obtain ⟨ring, rejected, pending, held, response, configuration, timebase, clock, store, screen⟩ := h
  obtain ⟨ring', rejected', pending', held', response', configuration', timebase', clock', store', screen'⟩ := k
  exact ⟨by rw [ring', ring], rejected'.trans rejected, pending'.trans pending, held'.trans held, response'.trans response,
    configuration'.trans configuration, timebase'.trans timebase, clock'.trans clock, store'.trans store,
    screen'.trans screen⟩

theorem State.MembersRefused.trans {s t u : State} {ms ms' : List Nat} {why : Reason} {fs fs' : List Flag}
    (h : s.MembersRefused t ms why fs) (k : t.MembersRefused u ms' why fs') (apart : ∀ j ∈ ms, j ∉ ms') :
    s.MembersRefused u (ms ++ ms') why (fs ++ fs') := by
  obtain ⟨refused, others, sequence, labels, refusals, flags, around⟩ := h
  obtain ⟨refused', others', sequence', labels', refusals', flags', around'⟩ := k
  refine ⟨fun j member => ?_, fun j out => ?_, sequence'.trans sequence, labels'.trans labels, fun bound => ?_,
    flags.trans flags', around.trans around'⟩
  · by_cases first : j ∈ ms
    · rw [others' j (apart j first)]
      exact refused j first
    · have second := (List.mem_append.1 member).resolve_left first
      rw [← others j first]
      exact refused' j second
  · rw [List.mem_append, not_or] at out
    rw [others' j out.2, others j out.1]
  · have counted := refusals bound
    rw [refusals' (by omega), counted, List.length_append]
    omega

theorem State.MayServe.head {s : State} {q : Request} {qs : List Request} (h : s.MayServe (q :: qs)) :
    s.AllSeeking q.members := by
  obtain ⟨nodup, seeking⟩ := h
  rw [List.flatMap_cons] at nodup
  exact ⟨(List.nodup_append.1 nodup).1, seeking q List.mem_cons_self⟩

theorem State.MayServe.apart {s : State} {q : Request} {qs : List Request} (h : s.MayServe (q :: qs)) :
    ∀ j ∈ q.members, j ∉ qs.flatMap (·.members) := by
  have nodup := h.1
  rw [List.flatMap_cons] at nodup
  exact fun j first second => (List.nodup_append.1 nodup).2.2 j first j second rfl

theorem State.MayServe.congr {s t : State} {qs : List Request} (h : s.MayServe qs)
    (same : ∀ j ∈ qs.flatMap (·.members), t.slot j = s.slot j) : t.MayServe qs :=
  ⟨h.1, fun q inList i member => by
    rw [same i (List.mem_flatMap.2 ⟨q, inList, member⟩)]
    exact h.2 q inList i member⟩

theorem State.MayServe.sublist {s : State} {qs ws : List Request} (h : s.MayServe ws) (sub : qs.Sublist ws) : s.MayServe qs :=
  ⟨(sub.flatMap (·.members)).nodup h.1, fun q inList => h.2 q (sub.subset inList)⟩

theorem State.MayServe.tail {s t : State} {q : Request} {qs : List Request} (h : s.MayServe (q :: qs))
    (others : ∀ j, j ∉ q.members → t.slot j = s.slot j) : t.MayServe qs :=
  (h.sublist (List.sublist_cons_self q qs)).congr fun j later => others j fun first => h.apart j first later

/-- Requests with no candidate left, one after another (R86, R109). -/
theorem endRefused_moveOnAll {s : State} {qs : List Request} (may : s.MayServe qs) (none : qs = [] ∨ s.NoneLeft qs) :
    s.EndRefused (s.moveOnAll qs) qs ∧ LotsStay s (s.moveOnAll qs) := by
  induction qs generalizing s with
  | nil => exact ⟨State.MembersRefused.nil s _, .refl s⟩
  | cons q qs ih =>
    obtain ⟨mask, empty⟩ := none.resolve_left (List.cons_ne_nil _ _)
    have first : s.moveOn q = s.settleNoDispatch { q with next := q.next + 1, waitingOn := Option.none } := by
      rw [State.moveOn, empty q List.mem_cons_self]
      rfl
    obtain ⟨⟨undelivered, -⟩, stay⟩ := settleNoDispatch_spec (s := s) (q := { q with next := q.next + 1, waitingOn := Option.none })
      may.head
    rw [← first] at undelivered stay
    have refused := (allRefused_single _ _ _ _ _).1 (undelivered mask)
    have config : (s.moveOn q).config = s.config := by
      rw [State.config, refused.2.2.2.2.2.2.2.2.2.2.2.1]
      rfl
    obtain ⟨rest, stay'⟩ := ih (may.tail refused.2.1)
      (.inr ⟨by rw [config]; exact mask, fun q' inList => empty q' (List.mem_cons_of_mem q inList)⟩)
    have both := State.MembersRefused.trans refused ((allRefused_iff _ _ _ _ _).1 rest) may.apart
    refine ⟨?_, stay.trans stay'⟩
    obtain ⟨a, b, c, d, e, flags, f⟩ := both
    refine ⟨a, b, c, d, e, fun f => ?_, f⟩
    refine (flags f).trans ?_
    split <;> simp

end Sys2Proof.Machine

end

section
/-! The tries of a dispatch request: the candidates it passes over, and the first that it does not (R104 to R110, R115,
R116). -/

namespace Sys2Proof.Machine

/-! ### The entry with the least key (R97) -/

/-- The entry chosen qualifies and has the lowest key, the lowest number first among equals. -/
theorem leastEntry_spec (qualifies : LotEntry → Bool) (key : LotEntry → Nat) (l : List LotEntry) (i : Nat) :
    (leastEntry qualifies key i l = none ∧ ∀ x ∈ l, qualifies x = false) ∨
    ∃ n e, leastEntry qualifies key i l = some (i + n, key e) ∧ l[n]? = some e ∧ qualifies e = true ∧
      ∀ m x, l[m]? = some x → qualifies x = true → key e < key x ∨ (key e = key x ∧ n ≤ m) := by
  induction l generalizing i with
  | nil => exact .inl ⟨rfl, fun _ h => absurd h List.not_mem_nil⟩
  | cons a l ih =>
    rw [leastEntry]
    obtain ⟨none, lacks⟩ | ⟨n, e, some', at', good, least⟩ := ih (i + 1)
    · rw [none]
      dsimp only
      cases qualified : qualifies a with
      | false => exact .inl ⟨rfl, by simpa [qualified] using lacks⟩
      | true =>
        refine .inr ⟨0, a, rfl, rfl, qualified, fun m x found qual => ?_⟩
        cases m with
        | zero => cases found; exact .inr ⟨rfl, le_refl 0⟩
        | succ m =>
          rw [lacks x (List.mem_of_getElem? found)] at qual
          cases qual
    · rw [some']
      dsimp only
      by_cases first : (qualifies a && decide (key a ≤ key e)) = true
      · rw [if_pos first]
        obtain ⟨qualified, below⟩ := Bool.and_eq_true_iff.1 first
        have below := of_decide_eq_true below
        refine .inr ⟨0, a, rfl, rfl, qualified, fun m x found qual => ?_⟩
        cases m with
        | zero => cases found; exact .inr ⟨rfl, le_refl 0⟩
        | succ m =>
          have := least m x found qual
          omega
      · rw [if_neg first]
        refine .inr ⟨n + 1, e, by rw [Nat.add_assoc, Nat.add_comm 1 n], at', good, fun m x found qual => ?_⟩
        cases m with
        | zero =>
          cases found
          have above : ¬ key a ≤ key e := fun below => first (by simp [qual, below])
          omega
        | succ m =>
          have := least m x found qual
          omega

theorem leastEntry_eq {qualifies : LotEntry → Bool} {key : LotEntry → Nat} {l : List LotEntry} {k : Nat} {e : LotEntry}
    (found : l[k]? = some e) (qualified : qualifies e = true)
    (least : ∀ m x, l[m]? = some x → qualifies x = true → key e < key x ∨ (key e = key x ∧ k ≤ m)) :
    leastEntry qualifies key 0 l = some (k, key e) := by
  obtain ⟨-, lacks⟩ | ⟨n, e', chosen, at', good, least'⟩ := leastEntry_spec qualifies key l 0
  · rw [lacks e (List.mem_of_getElem? found)] at qualified
    cases qualified
  · have one := least n e' at' good
    have other := least' k e found qualified
    have same : n = k := by omega
    subst same
    rw [found] at at'
    cases at'
    rw [chosen, Nat.zero_add]

theorem leastEntry_none {qualifies : LotEntry → Bool} {key : LotEntry → Nat} {l : List LotEntry}
    (lacks : ∀ x ∈ l, ¬ qualifies x = true) : leastEntry qualifies key 0 l = none := by
  obtain ⟨none, -⟩ | ⟨n, e, -, at', good, -⟩ := leastEntry_spec qualifies key l 0
  · exact none
  · exact absurd good (lacks e (List.mem_of_getElem? at'))

theorem fits_iff (q f : Figures) : q.fits f = true ↔ FitsIn q f := by
  simp [Figures.fits, FitsIn, and_assoc]

theorem fits_eq_false_iff (q f : Figures) : q.fits f = false ↔ ¬ FitsIn q f := by rw [← Bool.not_eq_true, fits_iff]

theorem unreachableNow_iff (s : State) (e : LotEntry) : s.unreachableNow e = true ↔ s.Unreachable e := by
  rw [State.unreachableNow, State.Unreachable]
  cases e.unreachable <;> simp

theorem idle_iff (e : LotEntry) : e.idle = true ↔ MayReturn e := by
  simp [LotEntry.idle, MayReturn]

theorem replaceable_iff (s : State) (e : LotEntry) : s.replaceable e = true ↔ s.MayReplace e := by
  simp only [State.replaceable, Bool.and_eq_true, idle_iff, MayReturn, Option.isNone_iff_eq_none, Bool.not_eq_true',
    ← Bool.not_eq_true, unreachableNow_iff, State.MayReplace, and_assoc]

theorem queueable_handover_iff (frame : Option PendingFrame) :
    queueable frame .handover = true ↔ frame = none ∨ ∃ g, frame = some g ∧ g.kind = .notice := by
  cases frame with
  | none => simp [queueable]
  | some g =>
    have kinds : g.kind.yieldsTo .handover = true ↔ g.kind = .notice := by cases g.kind <;> simp [FrameKind.yieldsTo]
    simp [queueable, kinds]

theorem castable_iff (s : State) (e : LotEntry) : s.castable e = true ↔ s.MayCastOut e := by
  simp only [State.castable, State.MayCastOut, Bool.and_eq_true, holds_iff, queueable_handover_iff, List.isEmpty_iff,
    Option.isNone_iff_eq_none, Bool.not_eq_true', and_assoc]
  cases e.lot <;> simp

section
variable {s : State} {k : Nat} {e : LotEntry}

theorem chooseReplaceable_least (least : s.LeastOf s.MayReplace (·.lastUse) k e) : s.chooseReplaceable = some k := by
  obtain ⟨found, qualified, least⟩ := least
  rw [State.chooseReplaceable, leastEntry_eq found ((replaceable_iff s e).2 qualified) fun m x at' qual =>
    least m x at' ((replaceable_iff s x).1 qual)]
  rfl

theorem chooseReplaceable_none (lacks : ∀ x ∈ s.table, ¬ s.MayReplace x) : s.chooseReplaceable = none := by
  rw [State.chooseReplaceable, leastEntry_none fun x inTable qual => lacks x inTable ((replaceable_iff s x).1 qual)]
  rfl

theorem chooseReturn_least (least : s.LeastOf MayReturn (·.lastUse) k e) : s.chooseReturn = some k := by
  obtain ⟨found, qualified, least⟩ := least
  rw [State.chooseReturn, leastEntry_eq found ((idle_iff e).2 qualified) fun m x at' qual => least m x at' ((idle_iff x).1 qual)]
  rfl

theorem chooseReturn_none (lacks : ∀ x ∈ s.table, ¬ MayReturn x) : s.chooseReturn = none := by
  rw [State.chooseReturn, leastEntry_none fun x inTable qual => lacks x inTable ((idle_iff x).1 qual)]
  rfl

theorem chooseCastout_least (least : s.LeastOf s.MayCastOut (·.lastDebit) k e) : s.chooseCastout = some k := by
  obtain ⟨found, qualified, least⟩ := least
  rw [State.chooseCastout, leastEntry_eq found ((castable_iff s e).2 qualified) fun m x at' qual =>
    least m x at' ((castable_iff s x).1 qual)]
  rfl

theorem chooseCastout_none (lacks : ∀ x ∈ s.table, ¬ s.MayCastOut x) : s.chooseCastout = none := by
  rw [State.chooseCastout, leastEntry_none fun x inTable qual => lacks x inTable ((castable_iff s x).1 qual)]
  rfl

end

/-! ### Candidates passed over (R106, R107) -/

theorem table_useEntry (s : State) (k j : Nat) : (s.useEntry k).table[j]? =
    s.table[j]?.map fun e => if k = j then { e with lastUse := s.ordinal } else e := by
  rw [State.useEntry, State.nextOrdinal, State.updateEntry, List.getElem?_modify]
  rfl

theorem entryOf_useEntry (s : State) (k lot : Nat) : (s.useEntry k).entryOf lot = s.entryOf lot := by
  by_cases inTable : k < s.table.length
  · have found : s.table[k]? = some s.table[k] := List.getElem?_eq_getElem inTable
    have used : s.useEntry k = (s.putEntry k { s.table[k] with lastUse := s.ordinal }).nextOrdinal :=
      congrArg State.nextOrdinal (updateEntry_at found fun e => { e with lastUse := s.ordinal })
    rw [used]
    exact entryOf_putEntry (s := s) found (e' := { s.table[k] with lastUse := s.ordinal }) rfl lot
  · have stays : s.table.modify k (fun e => { e with lastUse := s.ordinal }) = s.table :=
      List.modify_eq_self (Nat.le_of_not_lt inTable)
    rw [State.useEntry, State.nextOrdinal, State.updateEntry, stays]
    rfl

theorem passes_useEntry {s : State} {f : Figures} {c : Candidate} (h : s.Passes f c) (k : Nat) : (s.useEntry k).Passes f c := by
  obtain past | home | ⟨foreign, j, e, named, found, passes⟩ := h
  · exact .inl past
  · exact .inr (.inl home)
  · refine .inr (.inr ⟨foreign, j, if k = j then { e with lastUse := s.ordinal } else e,
      (entryOf_useEntry s k c.lot).trans named, ?_, ?_⟩)
    · rw [table_useEntry, found]
      rfl
    · split <;> exact passes

theorem passing_cons (s : State) (c : Candidate) (cs : List Candidate) : s.passing (c :: cs) = (s.passing [c]).passing cs := by
  simp only [State.passing]
  split
  · rfl
  · split <;> rfl

/-- Passing over a candidate is at most a use of its entry. -/
theorem passing_one (s : State) (c : Candidate) : s.passing [c] = s ∨ ∃ k, s.passing [c] = s.useEntry k := by
  simp only [State.passing]
  split
  · exact .inl rfl
  · split
    case h_1 k _ => exact .inr ⟨k, rfl⟩
    case h_2 => exact .inl rfl

theorem passes_passing {s : State} {f : Figures} {c : Candidate} (h : s.Passes f c) (c' : Candidate) :
    (s.passing [c']).Passes f c := by
  obtain same | ⟨k, same⟩ := passing_one s c' <;> rw [same]
  · exact h
  · exact passes_useEntry h k

/-- Everything but the entries and the order numbers is the same after candidates are passed over. -/
theorem passing_eq (s : State) (cs : List Candidate) :
    s.passing cs = { s with table := (s.passing cs).table, ordinal := (s.passing cs).ordinal } := by
  induction cs generalizing s with
  | nil => rfl
  | cons c cs ih =>
    have one : s.passing [c] = { s with table := (s.passing [c]).table, ordinal := (s.passing [c]).ordinal } := by
      obtain same | ⟨k, same⟩ := passing_one s c <;> rw [same] <;> rfl
    rw [passing_cons]
    refine (ih (s.passing [c])).trans ?_
    rw [one]

theorem length_passing (s : State) (cs : List Candidate) : (s.passing cs).table.length = s.table.length := by
  induction cs generalizing s with
  | nil => rfl
  | cons c cs ih =>
    rw [passing_cons, ih]
    obtain same | ⟨k, same⟩ := passing_one s c <;> rw [same]
    exact length_updateEntry s k _

theorem debit_tooLittle {s : State} {ref : RecordRef} {q : Request} {lot : Nat} {f : Figures} {mark : Bool}
    (owned : s.owned ref = some (lot, f, mark)) (tooLittle : ¬ FitsIn q.figures f) : s.debit ref q = none := by
  rw [State.debit, owned]
  exact if_pos (by rw [(fits_eq_false_iff _ _).2 tooLittle]; simp)

theorem tryHome_passes {s : State} {q : Request} {lot : Nat} {h : HomeRecord} (found : s.findHome lot = some h)
    (passes : h.state = .ended ∨ (h.state = .away ∧ ∃ g, h.lastSeen = some g ∧ ¬ FitsIn q.figures g) ∨
      (h.state = .atHome ∧ h.queue = [] ∧ h.handingOver = false ∧ ¬ FitsIn q.figures h.figures)) :
    s.tryHome q lot = .movesOn s := by
  rw [State.tryHome, found]
  dsimp only
  obtain ended | ⟨away, g, seen, tooLittle⟩ | ⟨atHome, queue, stays, tooLittle⟩ := passes
  · rw [ended]
  · rw [away]
    dsimp only
    rw [seen, Option.all_some, (fits_eq_false_iff _ _).2 tooLittle]
    rfl
  · rw [atHome]
    dsimp only
    rw [if_pos (by simp [queue, stays]), State.tryDebit, debit_tooLittle (lot := lot) (f := h.figures) (mark := h.reclaimed) ?_ tooLittle]
    rw [State.owned, found]
    exact if_pos (by rw [HomeRecord.holds, atHome]; rfl)

theorem tryEntry_passes {s : State} {q : Request} {lot i : Nat} {e : LotEntry} (found : s.table[i]? = some e)
    (named : e.lot = some lot) (passes : s.EntryPasses q.figures e) : s.tryEntry q lot i = .movesOn s := by
  have owned (holds : e.state = .owned ∨ e.state = .ownedModified) :
      s.owned (.entry i) = some (lot, e.figures.getD .zero, e.reclaimed) := by
    rw [State.owned, entry_at found, named]
    exact if_pos ((holds_iff e).2 holds)
  have debits (holds : e.state = .owned ∨ e.state = .ownedModified)
      (tooLittle : ∃ g, e.figures = some g ∧ ¬ FitsIn q.figures g) : s.tryDebit (.entry i) q = .movesOn s := by
    obtain ⟨g, figures, tooLittle⟩ := tooLittle
    rw [State.tryDebit, debit_tooLittle (owned holds) (by rw [figures]; exact tooLittle)]
  rw [State.tryEntry, entry_at found]
  obtain ⟨holds, castout⟩ | ⟨lacks, unreachable⟩ | ⟨copy, g, figures, tooLittle⟩ | ⟨holds, queue, stays, tooLittle⟩ := passes
  · obtain state | state := holds <;> rw [state] <;> exact if_pos castout
  · have now := (unreachableNow_iff s e).2 unreachable
    obtain state | state := lacks <;> rw [state] <;> exact if_pos (by simp [now])
  · rw [copy]
    exact if_pos (by rw [figures, Option.all_some, (fits_eq_false_iff _ _).2 tooLittle]; simp)
  · have debited := debits holds tooLittle
    cases castout : e.castout with
    | true => obtain state | state := holds <;> rw [state] <;> rfl
    | false =>
      have free : (e.queue.isEmpty && !e.handingOver) = true := by simp [queue, stays]
      obtain state | state := holds <;> rw [state] <;> exact (if_neg Bool.false_ne_true).trans ((if_pos free).trans debited)

theorem tryCandidate_passes {s : State} {q : Request} {c : Candidate} (passes : s.Passes q.figures c) :
    s.tryCandidate q c = .movesOn (s.passing [c]) := by
  have quiet (h : c.cutOff ≤ s.minute ∨ s.homeOf c.lot = s.own) : s.passing [c] = s := by
    rw [State.passing, if_pos h]
    rfl
  rw [State.tryCandidate]
  by_cases past : c.cutOff ≤ s.minute
  · rw [if_pos past, quiet (.inl past)]
  · rw [if_neg past]
    obtain past' | ⟨here, h, found, passes⟩ | ⟨foreign, k, e, named, found, passes⟩ := passes
    · exact absurd past' past
    · rw [if_pos here, quiet (.inr here), tryHome_passes found passes]
    · have used : s.passing [c] = s.useEntry k := by
        rw [State.passing, if_neg (not_or.2 ⟨past, foreign⟩), named]
        rfl
      rw [if_neg foreign, State.tryForeign, named, used]
      refine tryEntry_passes (e := { e with lastUse := s.ordinal }) ?_ ?_ passes
      · rw [table_useEntry, found, Option.map_some, if_pos rfl]
      · have lot := (entryOf_some named).2
        rw [entry_at found] at lot
        exact lot

/-- Candidates passed over one after another (R109). -/
theorem tryAll_passing {s : State} {q : Request} {pre : List Candidate} (passes : ∀ c ∈ pre, s.Passes q.figures c)
    (rest : List Candidate) :
    s.tryAll q (pre ++ rest) = (s.passing pre).tryAll { q with next := q.next + pre.length } rest := by
  induction pre generalizing s q with
  | nil => rfl
  | cons c pre ih =>
    rw [List.cons_append, State.tryAll, tryCandidate_passes (passes c List.mem_cons_self)]
    dsimp only
    rw [ih (q := { q with next := q.next + 1 }) fun x inList =>
      passes_passing (passes x (List.mem_cons_of_mem c inList)) c, passing_cons s c pre, List.length_cons]
    dsimp only
    rw [Nat.add_assoc, Nat.add_comm 1]

end Sys2Proof.Machine

end

section
/-! The first candidate that a request does not pass over, and the requests that move on (R104 to R110, R115, R116). -/

namespace Sys2Proof.Machine

/-- A request joins a waiting list at its taking order (R108). -/
theorem placed_joinWaiting (q : Request) (ws : List Request) : Placed q ws (joinWaiting q ws) := by
  induction ws with
  | nil => exact ⟨[], [], rfl, rfl, fun _ h => absurd h List.not_mem_nil, fun _ h => by cases h⟩
  | cons w ws ih =>
    rw [joinWaiting]
    by_cases younger : q.order < w.order
    · rw [if_pos younger]
      refine ⟨[], w :: ws, rfl, rfl, fun _ h => absurd h List.not_mem_nil, fun x first => ?_⟩
      cases first
      exact younger
    · rw [if_neg younger]
      obtain ⟨older, later, rfl, joined, below, above⟩ := ih
      refine ⟨w :: older, later, rfl, by rw [joined]; rfl, fun x inList => ?_, above⟩
      obtain rfl | inOlder := List.mem_cons.1 inList
      · exact Nat.le_of_not_lt younger
      · exact below x inOlder

/-- The state with its lot records and order numbers replaced. -/
def State.withRecords (s : State) (home : List HomeRecord) (table : List LotEntry) (ordinal : Nat) : State :=
  { s with home := home, table := table, ordinal := ordinal }

/-- The dispatch fields of a debit of departure `d`'s lot (R110). -/
def Departure.fields (d : Departure) (q : Request) (mark : Bool) : DispatchFields := ⟨q.route, d.index, d.cutOff, d.lot, false, mark⟩

/-- What the three ends of a try give, the try made in `s` and ending in `e` (R63, R87, R107, R110). -/
structure TryEnds (s e : State) (q : Request) (d : Departure) (waits : Prop) (labelled : Nat → Bool → Prop)
    (unnumbered : Prop) : Prop where
  waits : ∀ home table ordinal, e = s.withRecords home table ordinal → waits
  labelled : ∀ home table ordinal n mark, e = (s.withRecords home table ordinal).labelRequest q (d.fields q mark) →
    s.sequence = some n → n + q.members.length ≤ 100000 → labelled n mark
  unnumbered : ∀ home table ordinal, e = (s.withRecords home table ordinal).refuseNoNumber q → unnumbered

theorem labelRequest_home (s : State) (q : Request) (d : DispatchFields) :
    (s.labelRequest q d).home = s.home ∧ (s.labelRequest q d).table = s.table := by
  obtain ⟨-, -, -, -, -, -, -, -, -, home, table, -⟩ :=
    (slotStep_labelMembers s d (s.consignmentNumber q (s.sequence.getD 0)) (s.sequence.getD 0) q.members).outside
  exact ⟨home, table⟩

theorem refuseNoNumber_home (s : State) (q : Request) :
    (s.refuseNoNumber q).home = s.home ∧ (s.refuseNoNumber q).table = s.table := by
  obtain ⟨-, -, -, -, -, -, -, -, -, home, table, -⟩ :=
    (slotStep_refuseSeeking (s.raise .noNumber) q.members (some (DispatchFields.routeOnly q.route false)) .noNumber).outside
  exact ⟨home, table⟩

theorem planLot_lot {s : State} {lot : Nat} {d : Departure} (plan : s.planLot lot = some d) : d.lot = lot := by
  rw [State.planLot] at plan
  split at plan
  · simpa using List.find?_some plan
  · cases plan

theorem debitFields_eq {s : State} {lot : Nat} {d : Departure} (plan : s.planLot lot = some d) (q : Request) (mark : Bool) :
    s.debitFields q lot mark = d.fields q mark := by
  rw [State.debitFields, plan, Departure.fields, planLot_lot plan]

/-- The debit of a lot that has room, before its cut-off (R110, R167). -/
theorem debit_fits {s : State} {ref : RecordRef} {q : Request} {lot : Nat} {f : Figures} {mark : Bool} {d : Departure}
    (owned : s.owned ref = some (lot, f, mark)) (plan : s.planLot lot = some d) (early : s.minute < d.cutOff)
    (room : FitsIn q.figures f) : s.debit ref q = some (if s.canCover q.pieces then
      (s.takeFigures ref q.figures).labelRequest q (d.fields q mark) else s.refuseNoNumber q) := by
  have inTime : s.pastCutOff lot = false := by
    rw [pastCutOff_eq plan]
    exact decide_eq_false (Nat.not_le.2 early)
  rw [State.debit, owned]
  dsimp only
  rw [inTime, (fits_iff _ _).2 room, debitFields_eq plan, if_neg (by decide)]
  split <;> rfl

/-! ### A lot homed here (R106) -/

section
variable {s e u : State} {q : Request} {lot : Nat} {d : Departure} {waits : Prop} {labelled : Nat → Bool → Prop}
  {unnumbered : Prop} {h : HomeRecord}

theorem join_home (one : s.OneHome lot h) (q : Request) : s.join (.home lot) lot q =
    s.putHome lot { h with waiting := joinWaiting (q.waitsOn lot) h.waiting } :=
  one.update fun r => { r with waiting := joinWaiting (q.waitsOn lot) r.waiting }

/-- A home record starts asking and the request joins it. -/
theorem askHome_join (one : s.OneHome lot h) (q : Request) : (s.askHome lot).join (.home lot) lot q =
    (s.putHome lot { (({ h with state := .askingHome, attempts := 0 } : HomeRecord).queued ⟨.fetch, 0, s.ordinal⟩) with
      waiting := joinWaiting (q.waitsOn lot) h.waiting }).nextOrdinal := by
  have asked : (s.askHome lot).OneHome lot
      (({ h with state := .askingHome, attempts := 0 } : HomeRecord).queued ⟨.fetch, 0, s.ordinal⟩) := by
    rw [askHome_eq one]
    exact one.put one.lot_eq
  rw [join_home asked, askHome_eq one]
  exact congrArg State.nextOrdinal (putHome_putHome s (r := ({ h with state := .askingHome, attempts := 0 } :
    HomeRecord).queued ⟨.fetch, 0, s.ordinal⟩) one.lot_eq _)

theorem tries_home (ends : TryEnds s e q d waits labelled unnumbered) (home : u.home = e.home) (table : u.table = e.table)
    (plan : s.planLot lot = some d) (early : s.minute < d.cutOff) (tried : ∀ x, s.tryHome q lot = .settled x → e = x)
    (one : s.OneHome lot h) :
    let becomes (h' : HomeRecord) : Prop :=
      u.table = s.table ∧ u.home = s.home.map (fun x => if x.lot = lot then h' else x)
    let joins (h' : HomeRecord) : Prop :=
      waits ∧ ∃ ws, Placed { q with waitingOn := some lot } h.waiting ws ∧ becomes { h' with waiting := ws }
    (∀ n, h.state = .atHome → h.queue = [] → h.handingOver = false → FitsIn q.figures h.figures → s.sequence = some n →
      (n + q.members.length ≤ 100000 → labelled n h.reclaimed ∧ becomes { h with figures :=
        ⟨h.figures.weight - q.figures.weight, h.figures.litres - q.figures.litres, h.figures.pieces - q.figures.pieces⟩ }) ∧
      (100000 < n + q.members.length → unnumbered ∧ becomes h)) ∧
    ((h.state = .atHome ∧ (h.queue ≠ [] ∨ h.handingOver = true)) ∨ h.state = .askingHome → joins h) ∧
    (h.state = .unknown ∨ (h.state = .away ∧ ∀ g, h.lastSeen = some g → FitsIn q.figures g) →
      (h.frame = none → joins { h with state := .askingHome, attempts := 0, frame := some ⟨.fetch, 0, s.ordinal⟩ }) ∧
      ((∃ g, h.frame = some g ∧ g.kind = .reclaim) → joins { h with state := .askingHome, attempts := 0 })) := by
  intro becomes joins
  have tryHome : s.tryHome q lot = match h.state with
      | .atHome => if h.queue.isEmpty && !h.handingOver then s.tryDebit (.home lot) q else .settled (s.join (.home lot) lot q)
      | .away => if h.lastSeen.all (fun f => q.figures.fits f) then .settled ((s.askHome lot).join (.home lot) lot q)
        else .movesOn s
      | .unknown => .settled ((s.askHome lot).join (.home lot) lot q)
      | .askingHome => .settled (s.join (.home lot) lot q)
      | .ended => .movesOn s := by
    rw [State.tryHome, one.1] <;> rfl
  have waiting {h' : HomeRecord} {o : Nat}
      (made : e = ({ s.putHome lot { h' with waiting := joinWaiting (q.waitsOn lot) h.waiting } with ordinal := o } : State)) :
      joins h' :=
    ⟨ends.waits _ _ _ made, _, placed_joinWaiting _ _, by rw [table, made]; rfl, by rw [home, made]; rfl⟩
  refine ⟨fun n atHome queue stays room counter => ?_, fun leaves => ?_, fun asks => ?_⟩
  · have owned : s.owned (.home lot) = some (lot, h.figures, h.reclaimed) := by
      rw [one.owned, if_pos (by rw [HomeRecord.holds, atHome]; rfl)]
    have debited := tried _ (by
      rw [tryHome, atHome]
      dsimp only
      rw [if_pos (by simp [queue, stays]), State.tryDebit, debit_fits owned plan early room])
    have covers := canCover_iff (k := q.pieces) counter
    refine ⟨fun covered => ?_, fun short => ?_⟩
    · rw [if_pos (covers.2 covered)] at debited
      have taken : s.takeFigures (.home lot) q.figures = s.putHome lot { h with figures := h.figures.lessen q.figures } :=
        one.update fun r => { r with figures := r.figures.lessen q.figures }
      rw [taken] at debited
      obtain ⟨sameHome, sameTable⟩ := labelRequest_home (s.putHome lot { h with figures := h.figures.lessen q.figures }) q
        (d.fields q h.reclaimed)
      exact ⟨ends.labelled _ _ _ _ _ debited counter covered, by rw [table, debited, sameTable]; rfl,
        by rw [home, debited, sameHome]; rfl⟩
    · rw [if_neg fun covered => absurd (covers.1 covered) (Nat.not_le.2 short)] at debited
      obtain ⟨sameHome, sameTable⟩ := refuseNoNumber_home s q
      refine ⟨ends.unnumbered s.home s.table s.ordinal debited, by rw [table, debited, sameTable], ?_⟩
      rw [home, debited, sameHome]
      exact (congrArg State.home (putHome_self one)).symm
  · refine waiting (o := s.ordinal) ?_
    rw [show ({ s.putHome lot { h with waiting := joinWaiting (q.waitsOn lot) h.waiting } with ordinal := s.ordinal } : State) =
      s.join (.home lot) lot q from (join_home one q).symm]
    refine tried _ ?_
    rw [tryHome]
    obtain ⟨atHome, leaves⟩ | asking := leaves
    · rw [atHome]
      exact if_neg (by obtain queue | handing := leaves <;> simp [*])
    · rw [asking]
  · have asked : e = _ := tried ((s.askHome lot).join (.home lot) lot q) (by
      rw [tryHome]
      obtain unknown | ⟨away, room⟩ := asks
      · rw [unknown]
      · rw [away]
        refine if_pos ?_
        cases seen : h.lastSeen with
        | none => rfl
        | some g => exact (fits_iff _ _).2 (room g seen))
    rw [askHome_join one] at asked
    refine ⟨fun free => ?_, fun ⟨g, frame, kind⟩ => ?_⟩
    · rw [HomeRecord.queued_of_queueable (by rw [free]; rfl), show (FrameKind.fetch == FrameKind.handover) = false from rfl,
        Bool.or_false] at asked
      exact waiting (o := s.ordinal + 1) asked
    · rw [HomeRecord.queued_of_not (by rw [frame, queueable, kind]; rfl)] at asked
      exact waiting (h' := { h with state := .askingHome, attempts := 0 }) (o := s.ordinal + 1) asked

end

/-! ### A foreign lot (R107, R115, R116) -/

section
variable {s t u : State} {q : Request} {lot k : Nat} {d : Departure} {waits : Prop} {labelled : Nat → Bool → Prop}
  {unnumbered : Prop} {e : LotEntry}

theorem useEntry_eq (found : s.table[k]? = some e) : s.useEntry k = (s.putEntry k { e with lastUse := s.ordinal }).nextOrdinal :=
  congrArg State.nextOrdinal (updateEntry_at found fun e => { e with lastUse := s.ordinal })

theorem at_useEntry (found : s.table[k]? = some e) : (s.useEntry k).table[k]? = some { e with lastUse := s.ordinal } := by
  rw [table_useEntry, found, Option.map_some, if_pos rfl]

theorem join_entry (found : s.table[k]? = some e) (lot : Nat) (q : Request) : s.join (.entry k) lot q =
    s.putEntry k { e with waiting := joinWaiting (q.waitsOn lot) e.waiting } :=
  updateEntry_at found fun e => { e with waiting := joinWaiting (q.waitsOn lot) e.waiting }

theorem join_useEntry (found : s.table[k]? = some e) (lot : Nat) (q : Request) : (s.useEntry k).join (.entry k) lot q =
    (s.putEntry k { e with lastUse := s.ordinal, waiting := joinWaiting (q.waitsOn lot) e.waiting }).nextOrdinal := by
  rw [join_entry (at_useEntry found), useEntry_eq found]
  exact congrArg State.nextOrdinal (putEntry_putEntry s k { e with lastUse := s.ordinal } _)

/-- An entry starts asking and the request joins it. -/
theorem askEntry_join (found : s.table[k]? = some e) (lot : Nat) (q : Request) : (s.askEntry k).join (.entry k) lot q =
    (s.putEntry k { (({ e with state := .asking, attempts := 0, fetchTimer := none } : LotEntry).queued
      ⟨.fetch, 0, s.ordinal⟩) with waiting := joinWaiting (q.waitsOn lot) e.waiting }).nextOrdinal := by
  have asked : (s.askEntry k).table[k]? = some
      (({ e with state := .asking, attempts := 0, fetchTimer := none } : LotEntry).queued ⟨.fetch, 0, s.ordinal⟩) := by
    rw [askEntry_eq found]
    exact at_putEntry found _
  rw [join_entry asked, askEntry_eq found]
  exact congrArg State.nextOrdinal (putEntry_putEntry s k (({ e with state := .asking, attempts := 0, fetchTimer := none } :
    LotEntry).queued ⟨.fetch, 0, s.ordinal⟩) _)

/-- A try at an entry, whose record a use has marked. -/
theorem tryForeign_entry (named : s.entryOf lot = some k) (q : Request) :
    s.tryForeign q lot = (s.useEntry k).tryEntry q lot k := by rw [State.tryForeign, named]

theorem makeEntry_queue (found : s.table[k]? = some e) (lot : Nat) (ws : List Request) :
    (s.makeEntry k lot .asking ws).queue (.entry k) .fetch 0 = { s.putEntry k { LotEntry.cleared with
      lot := some lot, state := .asking, lastUse := s.ordinal, lastDebit := e.lastDebit, waiting := ws
      frame := some ⟨.fetch, 0, s.ordinal + 1⟩ } with ordinal := s.ordinal + 2 } := by
  have made : s.makeEntry k lot .asking ws = (s.putEntry k { LotEntry.cleared with
      lot := some lot, state := .asking, lastUse := s.ordinal, lastDebit := e.lastDebit, waiting := ws }).nextOrdinal :=
    congrArg State.nextOrdinal (updateEntry_at found _)
  have at' : (s.makeEntry k lot .asking ws).table[k]? = some { LotEntry.cleared with
      lot := some lot, state := .asking, lastUse := s.ordinal, lastDebit := e.lastDebit, waiting := ws } := by
    rw [made]
    exact at_putEntry found _
  rw [queue_at at', made, LotEntry.queued_of_queueable (by rfl)]
  exact congrArg (fun s : State => { s with ordinal := s.ordinal + 2 }) (putEntry_putEntry s k _ _)

theorem castOut_eq (found : s.table[k]? = some e) (free : queueable e.frame .handover = true) {old : Nat}
    (named : e.lot = some old) (lot : Nat) (q : Request) : s.castOut k lot q = (s.putEntry k { e with
      castout := true, handingOver := true, publishTimer := none
      frame := some ⟨.handover, s.homeOf old, s.ordinal⟩, incoming := some ⟨lot, [q.waitsOn lot]⟩ }).nextOrdinal := by
  have queued : s.queue (.entry k) .handover (s.homeOf old) = (s.putEntry k { e with
      handingOver := true, publishTimer := none, frame := some ⟨.handover, s.homeOf old, s.ordinal⟩ }).nextOrdinal := by
    rw [queue_at found, LotEntry.queued_of_queueable free, show (FrameKind.handover == FrameKind.handover) = true from rfl,
      Bool.or_true, Bool.true_or, if_pos rfl]
  have at' : (s.queue (.entry k) .handover (s.homeOf old)).table[k]? = some { e with
      handingOver := true, publishTimer := none, frame := some ⟨.handover, s.homeOf old, s.ordinal⟩ } := by
    rw [queued]
    exact at_putEntry found _
  have home : (match (s.entry k).lot with | some l => s.homeOf l | none => 0) = s.homeOf old := by rw [entry_at found, named]
  have cast : s.castOut k lot q = (s.queue (.entry k) .handover (s.homeOf old)).updateEntry k
      fun e => { e with castout := true, incoming := some ⟨lot, [q.waitsOn lot]⟩ } := by rw [← home]; rfl
  rw [cast, updateEntry_at at', queued]
  exact congrArg State.nextOrdinal (putEntry_putEntry s k _ _)

theorem tries_entry (ends : TryEnds s t q d waits labelled unnumbered) (home : u.home = t.home) (table : u.table = t.table)
    (plan : s.planLot lot = some d) (early : s.minute < d.cutOff) (tried : ∀ x, s.tryForeign q lot = .settled x → t = x)
    (named : s.entryOf lot = some k) (found : s.table[k]? = some e) :
    let becomes (e' : LotEntry) : Prop := u.home = s.home ∧ u.table = s.table.set k e'
    let joins (e' : LotEntry) : Prop := waits ∧ ∃ ws, Placed { q with waitingOn := some lot } e.waiting ws ∧
      becomes { e' with lastUse := s.ordinal, waiting := ws }
    (e.state = .free ∨ (e.state = .copy ∧ ∀ g, e.figures = some g → FitsIn q.figures g) → ¬ s.Unreachable e →
      (e.frame = none ∨ ∃ g, e.frame = some g ∧ g.kind = .stall) →
      joins { e with
        state := .asking, attempts := 0, fetchTimer := none, frame := some ⟨.fetch, 0, s.ordinal + 1⟩ }) ∧
    (e.state = .asking → joins e) ∧
    (e.state = .owned ∨ e.state = .ownedModified → e.castout = false → e.queue ≠ [] ∨ e.handingOver = true →
      joins e) ∧
    (∀ f n, e.state = .owned ∨ e.state = .ownedModified → e.castout = false → e.queue = [] →
      e.handingOver = false → e.figures = some f → FitsIn q.figures f → s.sequence = some n →
      (n + q.members.length ≤ 100000 → labelled n e.reclaimed ∧ becomes { e with
        state := .ownedModified
        figures := some ⟨f.weight - q.figures.weight, f.litres - q.figures.litres, f.pieces - q.figures.pieces⟩
        publishTimer := some (e.publishTimer.getD (s.config.publishDelay * 1000))
        lastUse := s.ordinal + 1, lastDebit := s.ordinal + 1 }) ∧
      (100000 < n + q.members.length → unnumbered ∧ becomes { e with lastUse := s.ordinal })) := by
  intro becomes joins
  rw [tryForeign_entry named] at tried
  have used := at_useEntry found
  have lotName : e.lot = some lot := by
    have lot := (entryOf_some named).2
    rwa [entry_at found] at lot
  have waiting {e' : LotEntry} {o : Nat}
      (made : t = { s.putEntry k { e' with lastUse := s.ordinal, waiting := joinWaiting (q.waitsOn lot) e.waiting } with
        ordinal := o }) : joins e' :=
    ⟨ends.waits _ _ _ made, _, placed_joinWaiting _ _, by rw [home, made]; rfl, by rw [table, made]; rfl⟩
  have joined (settles : (s.useEntry k).tryEntry q lot k = .settled ((s.useEntry k).join (.entry k) lot q)) : joins e := by
    have made := tried _ settles
    rw [join_useEntry found] at made
    exact waiting (o := s.ordinal + 1) made
  refine ⟨fun lacks reachable free => ?_, fun asking => joined ?_, fun holds notCast leaves => joined ?_,
    fun f n holds notCast queue stays figures room counter => ?_⟩
  · have now : (s.useEntry k).unreachableNow { e with lastUse := s.ordinal } = false :=
      Bool.eq_false_iff.2 fun h => reachable ((unreachableNow_iff s e).1 h)
    have asked : t = _ := tried (((s.useEntry k).askEntry k).join (.entry k) lot q) (by
      rw [State.tryEntry, entry_at used]
      obtain state | ⟨state, room⟩ := lacks
      · rw [state]
        exact if_neg (Bool.eq_false_iff.1 now)
      · rw [state]
        refine if_neg fun passes => ?_
        obtain unreachable | tooLittle := Bool.or_eq_true_iff.1 passes
        · exact Bool.eq_false_iff.1 now unreachable
        · cases seen : e.figures with
          | none => simp [seen] at tooLittle
          | some g => simp [seen, (fits_iff _ _).2 (room g seen)] at tooLittle)
    have queueable : queueable e.frame .fetch = true := by
      obtain none | ⟨g, frame, kind⟩ := free
      · rw [none]; rfl
      · rw [frame, queueable, kind]; rfl
    rw [askEntry_join used, LotEntry.queued_of_queueable (by exact queueable), useEntry_eq found,
      show (FrameKind.fetch == FrameKind.handover) = false from rfl,
      show (FrameKind.fetch == FrameKind.tally) = false from rfl, Bool.or_false, Bool.or_false, if_neg Bool.false_ne_true] at asked
    refine waiting (o := s.ordinal + 2) (asked.trans ?_)
    exact congrArg (fun x : State => { x with ordinal := s.ordinal + 2 }) (putEntry_putEntry s k _ _)
  · rw [State.tryEntry, entry_at used, asking]
  · have notFree : (e.queue.isEmpty && !e.handingOver) = false := by
      obtain queue | handing := leaves <;> simp [*]
    rw [State.tryEntry, entry_at used]
    obtain state | state := holds <;> rw [state] <;> dsimp only <;>
      rw [notCast, if_neg Bool.false_ne_true, notFree, if_neg Bool.false_ne_true]
  · have owned : (s.useEntry k).owned (.entry k) = some (lot, f, e.reclaimed) := by
      rw [State.owned, entry_at used]
      dsimp only
      rw [lotName, figures]
      exact if_pos ((holds_iff _).2 holds)
    have debited := tried (if (s.useEntry k).canCover q.pieces then
        ((s.useEntry k).takeFigures (.entry k) q.figures).labelRequest q (d.fields q e.reclaimed)
        else (s.useEntry k).refuseNoNumber q) (by
      have free : (e.queue.isEmpty && !e.handingOver) = true := by simp [queue, stays]
      have debit : (s.useEntry k).tryDebit (.entry k) q = .settled (if (s.useEntry k).canCover q.pieces then
          ((s.useEntry k).takeFigures (.entry k) q.figures).labelRequest q (d.fields q e.reclaimed)
          else (s.useEntry k).refuseNoNumber q) := by
        rw [State.tryDebit, debit_fits owned (d := d) plan early room]
      rw [State.tryEntry, entry_at used]
      obtain state | state := holds <;> rw [state] <;> dsimp only <;>
        rw [notCast, if_neg Bool.false_ne_true, free, if_pos rfl, debit])
    have covers := canCover_iff (s := s.useEntry k) (k := q.pieces) counter
    refine ⟨fun covered => ?_, fun short => ?_⟩
    · have taken : (s.useEntry k).takeFigures (.entry k) q.figures = { s.putEntry k { e with
          state := .ownedModified
          figures := some ⟨f.weight - q.figures.weight, f.litres - q.figures.litres, f.pieces - q.figures.pieces⟩
          publishTimer := some (e.publishTimer.getD (s.config.publishDelay * 1000))
          lastUse := s.ordinal + 1, lastDebit := s.ordinal + 1 } with ordinal := s.ordinal + 2 } := by
        rw [State.takeFigures]
        dsimp only
        rw [updateEntry_at used, useEntry_eq found]
        dsimp only
        rw [figures]
        exact congrArg (fun x : State => { x with ordinal := s.ordinal + 2 }) (putEntry_putEntry s k _ _)
      rw [if_pos (covers.2 covered), taken] at debited
      refine ⟨ends.labelled _ _ _ _ _ debited counter covered, ?_, ?_⟩
      · rw [home, debited, (labelRequest_home _ _ _).1]
        rfl
      · rw [table, debited, (labelRequest_home _ _ _).2]
        rfl
    · rw [if_neg fun covered => absurd (covers.1 covered) (Nat.not_le.2 short), useEntry_eq found] at debited
      refine ⟨ends.unnumbered _ _ _ debited, ?_, ?_⟩
      · rw [home, debited, (refuseNoNumber_home _ _).1]
        rfl
      · rw [table, debited, (refuseNoNumber_home _ _).2]
        rfl

theorem tries_unnamed (ends : TryEnds s t q d waits labelled unnumbered) (home : u.home = t.home) (table : u.table = t.table)
    (tried : ∀ x, s.tryForeign q lot = .settled x → t = x) (unnamed : s.entryOf lot = none) :
    let becomes (k : Nat) (e' : LotEntry) : Prop := u.home = s.home ∧ u.table = s.table.set k e'
    (∀ (k : Nat) (e : LotEntry) (n : Incoming), s.incomingOf lot = some k → s.table[k]? = some e →
      e.incoming = some n →
      waits ∧ ∃ ws, Placed { q with waitingOn := some lot } n.waiting ws ∧
        becomes k { e with lastUse := s.ordinal, incoming := some { n with waiting := ws } }) ∧
    (s.incomingOf lot = none →
      (∀ k e, s.LeastOf s.MayReplace (·.lastUse) k e → waits ∧ becomes k { LotEntry.cleared with
        lot := some lot, state := .asking, lastUse := s.ordinal, lastDebit := e.lastDebit
        waiting := [{ q with waitingOn := some lot }]
        frame := some ⟨.fetch, 0, s.ordinal + 1⟩ }) ∧
      (∀ k e old, (∀ x ∈ s.table, ¬ s.MayReplace x) → s.LeastOf s.MayCastOut (·.lastDebit) k e → e.lot = some old →
        waits ∧ becomes k { e with
          castout := true, handingOver := true, publishTimer := none
          frame := some ⟨.handover, s.homeOf old, s.ordinal⟩, incoming := some ⟨lot, [{ q with waitingOn := some lot }]⟩ })) := by
  intro becomes
  have finish {k : Nat} {e' : LotEntry} {o : Nat} (made : t = { s.putEntry k e' with ordinal := o }) : waits ∧ becomes k e' :=
    ⟨ends.waits _ _ _ made, by rw [home, made]; rfl, by rw [table, made]; rfl⟩
  refine ⟨fun k e n incoming found held => ?_, fun noIncoming => ?_⟩
  · have made := tried _ (by rw [State.tryForeign, unnamed]; dsimp only; rw [incoming])
    rw [updateEntry_at (at_useEntry found), useEntry_eq found] at made
    dsimp only at made
    rw [held] at made
    have same := made.trans (congrArg (fun x : State => { x with ordinal := s.ordinal + 1 }) (putEntry_putEntry s k _ _))
    obtain ⟨waits, becomes⟩ := finish (k := k) (o := s.ordinal + 1) same
    exact ⟨waits, _, placed_joinWaiting _ _, becomes⟩
  · have fresh : s.tryForeign q lot = s.tryNewEntry q lot := by
      rw [State.tryForeign, unnamed]
      dsimp only
      rw [noIncoming]
    rw [fresh] at tried
    refine ⟨fun k e least => ?_, fun k e old noneFree least named => ?_⟩
    · have made := tried _ (by rw [State.tryNewEntry, chooseReplaceable_least least])
      rw [makeEntry_queue least.1] at made
      exact finish made
    · have made := tried _ (by rw [State.tryNewEntry, chooseReplaceable_none noneFree, chooseCastout_least least])
      obtain ⟨found, ⟨-, -, -, -, -, free, -⟩, -⟩ := least
      rw [castOut_eq found ((queueable_handover_iff _).2 free) named] at made
      exact finish made

/-- The first candidate not passed over, its cut-off still to come: the try is as `State.Tries` says. -/
theorem tries_tryAll {c : Candidate} {cs : List Candidate} (plan : s.planLot c.lot = some d)
    (early : s.minute < d.cutOff) (inTime : s.minute < c.cutOff)
    (ends : TryEnds s (s.tryAll q (c :: cs)) q d waits labelled unnumbered)
    (home : u.home = (s.tryAll q (c :: cs)).home) (table : u.table = (s.tryAll q (c :: cs)).table) :
    s.Tries u c.lot d { q with waitingOn := some c.lot } waits labelled unnumbered := by
  have tries : s.tryCandidate q c = if d.home = s.own then s.tryHome q c.lot else s.tryForeign q c.lot := by
    rw [State.tryCandidate, if_neg (Nat.not_le.2 inTime), homeOf_eq plan]
  have settled (x : State) (h : s.tryCandidate q c = .settled x) : s.tryAll q (c :: cs) = x := by
    rw [State.tryAll, h]
  refine ⟨fun h here one => ?_, fun foreign => ⟨fun k e named found => ?_, fun unnamed => ?_⟩⟩
  · exact tries_home (q := q) ends home table plan early (fun x h => settled x (by rw [tries, if_pos here, h])) one
  · exact tries_entry (q := q) ends home table plan early (fun x h => settled x (by rw [tries, if_neg foreign, h])) named found
  · exact tries_unnamed (q := q) ends home table (fun x h => settled x (by rw [tries, if_neg foreign, h])) unnamed

end

end Sys2Proof.Machine

end

section
/-! A request that waits no longer moves on to its later candidates (R109). -/

namespace Sys2Proof.Machine

section
variable {s t : State} {q : Request} {d : Departure}

theorem State.withRecords_self (s : State) : s.withRecords s.home s.table s.ordinal = s := rfl

theorem State.AllSeeking.withRecords {members : List Nat} (all : s.AllSeeking members) (home : List HomeRecord)
    (table : List LotEntry) (ordinal : Nat) : (s.withRecords home table ordinal).AllSeeking members := ⟨all.nodup, all.seeking⟩

theorem passing_withRecords (s : State) (cs : List Candidate) :
    s.passing cs = s.withRecords s.home (s.passing cs).table (s.passing cs).ordinal := passing_eq s cs

/-- One request labelled whole from its lot (R110, R166). -/
theorem served_of_labels {home : List HomeRecord} {table : List LotEntry} {ordinal n : Nat} {mark : Bool} {text : Bytes}
    (labels : (s.withRecords home table ordinal).Labels t q.members (d.fields q mark) text n) :
    s.Served t d mark [q] [] n := by
  have unit : t.unit = _ := congrArg State.unit labels.rest
  have members : [q].flatMap (·.members) = q.members := List.flatMap_singleton _ _
  rw [State.Served, members]
  refine ⟨fun k j at' => ?_, fun j inNone => absurd inNone List.not_mem_nil, fun j out _ => labels.others j out,
    congrArg State.ring labels.rest, ?_, fun bound => ?_, fun bound => ?_, ?_, ?_, ?_⟩
  · obtain ⟨p, record, slot⟩ := labels.labelled k j at'
    rw [slot]
    exact ⟨rfl, rfl, rfl, _, rfl, rfl, rfl, rfl, rfl, rfl, rfl, rfl⟩
  · rw [labels.rest]
  · rw [unit]
    exact countUp_iterate (.inl bound)
  · rw [unit]
    exact (min_eq_left bound).symm
  · rw [unit]
    rfl
  · rw [unit]
    exact setExactly_refl _
  · rw [labels.rest]
    exact ⟨rfl, rfl, rfl, rfl, rfl, rfl, rfl, rfl⟩

end

/-- A candidate that no entry names and none can be made for: the request ends undelivered (R109, R115). -/
theorem tryAll_noEntry {s : State} {q : Request} {c : Candidate} {cs : List Candidate} {d : Departure}
    (plan : s.planLot c.lot = some d) (inTime : s.minute < c.cutOff) (foreign : d.home ≠ s.own)
    (unnamed : s.entryOf c.lot = none) (noIncoming : s.incomingOf c.lot = none)
    (noneFree : ∀ x ∈ s.table, ¬ s.MayReplace x) (noneCast : ∀ x ∈ s.table, ¬ s.MayCastOut x) :
    s.tryAll q (c :: cs) = s.settleNoDispatch q := by
  have fails : s.tryCandidate q c = .noEntry s := by
    rw [State.tryCandidate, if_neg (Nat.not_le.2 inTime), homeOf_eq plan, if_neg foreign, State.tryForeign, unnamed]
    dsimp only
    rw [noIncoming]
    dsimp only
    rw [State.tryNewEntry, chooseReplaceable_none noneFree, chooseCastout_none noneCast]
  rw [State.tryAll, fails]

/-- Whether entries can be taken or cast out for a new lot is the same after candidates are passed over. -/
theorem forall_passing {s : State} (P : State → LotEntry → Prop)
    (uses : ∀ (s : State) (k : Nat) (e : LotEntry), P (s.useEntry k) e ↔ P s e)
    (keeps : ∀ (s : State) (e : LotEntry) (o : Nat), P s e → P s { e with lastUse := o }) (cs : List Candidate)
    (all : ∀ x ∈ s.table, P s x) : ∀ x ∈ (s.passing cs).table, P (s.passing cs) x := by
  induction cs generalizing s with
  | nil => exact all
  | cons c cs ih =>
    rw [passing_cons]
    refine ih fun x inTable => ?_
    obtain same | ⟨k, same⟩ := passing_one s c <;> rw [same] at inTable ⊢
    · exact all x inTable
    · rw [uses]
      obtain ⟨j, hj⟩ := List.getElem?_of_mem inTable
      rw [table_useEntry, Option.map_eq_some_iff] at hj
      obtain ⟨e, found, rfl⟩ := hj
      have old := all e (List.mem_of_getElem? found)
      split
      · exact keeps s e _ old
      · exact old

theorem incomingOf_passing (s : State) (cs : List Candidate) (lot : Nat) (none : s.incomingOf lot = none) :
    (s.passing cs).incomingOf lot = Option.none :=
  incomingOf_none.2 (forall_passing (fun _ e => ∀ c, e.incoming = some c → c.lot ≠ lot) (fun _ _ _ => Iff.rfl)
    (fun _ _ _ h => h) cs (incomingOf_none.1 none))

theorem entryOf_passing (s : State) (cs : List Candidate) (lot : Nat) : (s.passing cs).entryOf lot = s.entryOf lot := by
  induction cs generalizing s with
  | nil => rfl
  | cons c cs ih =>
    rw [passing_cons, ih]
    obtain same | ⟨k, same⟩ := passing_one s c <;> rw [same]
    exact entryOf_useEntry s k lot

theorem mayReplace_passing {s : State} (cs : List Candidate) (noneFree : ∀ x ∈ s.table, ¬ s.MayReplace x) :
    ∀ x ∈ (s.passing cs).table, ¬ (s.passing cs).MayReplace x :=
  forall_passing (fun s e => ¬ s.MayReplace e) (fun _ _ _ => Iff.rfl) (fun _ _ _ h => h) cs noneFree

theorem mayCastOut_passing {s : State} (cs : List Candidate) (noneCast : ∀ x ∈ s.table, ¬ s.MayCastOut x) :
    ∀ x ∈ (s.passing cs).table, ¬ (s.passing cs).MayCastOut x :=
  forall_passing (fun s e => ¬ s.MayCastOut e) (fun _ _ _ => Iff.rfl) (fun _ _ _ h => h) cs noneCast

/-- A request alone moves on as `State.MovesOn` says; the station state may have been settled since. -/
theorem movesOn_moveOn {s u : State} {q : Request} (may : s.MayServe [q])
    (same : u = { s.moveOn q with station := u.station }) : s.MovesOn u q := by
  have all : s.AllSeeking q.members := may.head
  generalize u.station = station at same
  subst same
  refine ⟨fun passes => ?_, fun pre c cs d split passes plan cutOff early => ⟨?_, fun foreign unnamed noIncoming noneFree noneCast => ?_⟩⟩
  · have moved : s.moveOn q = (s.passing (q.candidates.drop (q.next + 1))).settleNoDispatch
        { q with next := q.next + 1 + (q.candidates.drop (q.next + 1)).length, waitingOn := none } := by
      have went := tryAll_passing (s := s) (q := { q with next := q.next + 1, waitingOn := none }) passes []
      rw [List.append_nil] at went
      exact went
    rw [passing_withRecords] at moved
    obtain ⟨undelivered, stay⟩ := settleNoDispatch_spec (q := { q with
      next := q.next + 1 + (q.candidates.drop (q.next + 1)).length, waitingOn := none })
      (all.withRecords s.home (s.passing (q.candidates.drop (q.next + 1))).table (s.passing (q.candidates.drop (q.next + 1))).ordinal)
    rw [← moved] at undelivered stay
    exact ⟨undelivered, stay.home, stay.table⟩
  · have moved : s.moveOn q = (s.passing pre).tryAll
        { q with next := q.next + 1 + pre.length, waitingOn := none } (c :: cs) := by
      have went := tryAll_passing (s := s) (q := { q with next := q.next + 1, waitingOn := none }) passes (c :: cs)
      rw [← split] at went
      exact went
    have plan' : (s.passing pre).planLot c.lot = some d := by rw [passing_eq]; exact plan
    have early' : (s.passing pre).minute < d.cutOff := by rw [passing_eq]; exact early
    refine tries_tryAll (q := { q with next := q.next + 1 + pre.length, waitingOn := none }) (cs := cs) plan' early'
      (by rw [cutOff]; exact early') ⟨fun home table ordinal ended => ?_, fun home table ordinal n mark ended counter _ => ?_,
      fun home table ordinal ended => ?_⟩ (by rw [← moved]) (by rw [← moved])
    · rw [← moved, passing_withRecords] at ended
      rw [ended]
      exact ⟨rfl, rfl, rfl, rfl, rfl, rfl, rfl, rfl, rfl, rfl, rfl, rfl, rfl⟩
    · rw [← moved, passing_withRecords] at ended
      rw [passing_withRecords] at counter
      have labels := labels_labelRequest (q := { q with next := q.next + 1 + pre.length, waitingOn := none })
        (all.withRecords home table ordinal) counter (d.fields q mark)
      have served := served_of_labels labels
      rw [ended]
      exact served
    · rw [← moved, passing_withRecords] at ended
      have refused := (refuseNoNumber_spec (q := { q with next := q.next + 1 + pre.length, waitingOn := none })
        (all.withRecords home table ordinal)).1
      rw [ended, allRefused_single]
      exact refused
  · have moved : s.moveOn q = (s.passing pre).settleNoDispatch
        { q with next := q.next + 1 + pre.length, waitingOn := none } := by
      have went := tryAll_passing (s := s) (q := { q with next := q.next + 1, waitingOn := none }) passes (c :: cs)
      rw [← split] at went
      refine went.trans (tryAll_noEntry (d := d) ?_ ?_ ?_ ?_ (incomingOf_passing s pre c.lot noIncoming)
        (mayReplace_passing pre noneFree) (mayCastOut_passing pre noneCast))
      · rw [passing_eq]; exact plan
      · rw [passing_eq, cutOff]; exact early
      · rw [passing_eq]; exact foreign
      · rw [entryOf_passing]; exact unnamed
    rw [passing_withRecords] at moved
    obtain ⟨undelivered, stay⟩ := settleNoDispatch_spec (q := { q with next := q.next + 1 + pre.length, waitingOn := none })
      (all.withRecords s.home (s.passing pre).table (s.passing pre).ordinal)
    rw [← moved] at undelivered stay
    exact ⟨undelivered, stay.home, stay.table⟩

end Sys2Proof.Machine

end

section
/-! The request of a parcel alone, rated at the rate position (R63, R86, R87, R104 to R110). -/

namespace Sys2Proof.Machine

/-! ### The candidate list (R105) -/

theorem admits_iff (m : ServiceMask) (service : Nat) : m.admits service = true ↔
    (service = 0 ∧ m.economy = true) ∨ (service = 1 ∧ m.standard = true) ∨ (service = 2 ∧ m.priority = true) := by
  match service with
  | 0 => simp [ServiceMask.admits]
  | 1 => simp [ServiceMask.admits]
  | 2 => simp [ServiceMask.admits]
  | n + 3 => simp [ServiceMask.admits]

/-- A departure that a request may take: of its route, admitting its service, not past (R105). -/
def Departure.admitted (minute route service : Nat) (d : Departure) : Bool :=
  d.route == route && d.mask.admits service && minute < d.cutOff

theorem admitted_iff (minute route service : Nat) (d : Departure) : d.admitted minute route service = true ↔
    d.route = route ∧ minute < d.cutOff ∧ ((service = 0 ∧ d.mask.economy = true) ∨
      (service = 1 ∧ d.mask.standard = true) ∨ (service = 2 ∧ d.mask.priority = true)) := by
  rw [Departure.admitted, Bool.and_eq_true, Bool.and_eq_true, admits_iff, beq_iff_eq, decide_eq_true_iff]
  tauto

theorem candidatesOf_eq (t : Tariff) (minute route service : Nat) : candidatesOf t minute route service =
    ((t.plan.filter (Departure.admitted minute route service)).take 4).map fun d => ⟨d.lot, d.cutOff⟩ := rfl

theorem cutOff_of_candidate {t : Tariff} {minute route service : Nat} {c : Candidate}
    (inList : c ∈ candidatesOf t minute route service) : minute < c.cutOff := by
  obtain ⟨d, inTake, rfl⟩ := List.mem_map.1 inList
  have inFilter := List.mem_of_mem_take inTake
  exact ((admitted_iff _ _ _ _).1 (List.mem_filter.1 inFilter).2).2.1

/-- The departures that a request may take are in cut-off order. -/
theorem pairwise_admitted {t : Tariff} {minute route service : Nat}
    (plan : t.plan.Pairwise (fun a b => a.route = b.route → a.cutOff < b.cutOff)) :
    (t.plan.filter (Departure.admitted minute route service)).Pairwise (fun a b => a.cutOff < b.cutOff) := by
  refine (plan.filter _).imp_of_mem fun inA inB rises => rises ?_
  exact ((admitted_iff _ _ _ _).1 (List.mem_filter.1 inA).2).1.trans
    ((admitted_iff _ _ _ _).1 (List.mem_filter.1 inB).2).1.symm

/-! ### The parcel sought for -/

/-- The rate position has rated the parcel of slot `i`, which is SEEKING now; lot records and order numbers may have moved
since (R61, R63, R97). -/
structure State.Sought (s v : State) (i : Nat) (r : RatingResult) (fs : List Flag) : Prop where
  slot : v.slot i = { s.slot i with tag := .seeking, rating := some r }
  others : ∀ j, j ≠ i → v.slot j = s.slot j
  length : v.ring.slots.length = s.ring.slots.length
  flags : SetExactly s.unit.summary v.unit.summary fs
  ring : v.ring = { s.ring with slots := v.ring.slots, takings := s.ring.takings + 1 }
  unit : v.unit = { s.unit with summary := v.unit.summary }
  rest : v = { s with ring := v.ring, unit := v.unit, home := v.home, table := v.table, ordinal := v.ordinal }

section
variable {s v e : State} {i : Nat} {p : ParcelRecord} {r : RatingResult} {fs fs' : List Flag}

theorem State.Sought.withRecords (h : s.Sought v i r fs) (home : List HomeRecord) (table : List LotEntry) (ordinal : Nat) :
    s.Sought (v.withRecords home table ordinal) i r fs := by
  obtain ⟨slot, others, length, flags, ring, unit, rest⟩ := h
  refine ⟨slot, others, length, flags, ring, unit, ?_⟩
  exact congrArg (fun x : State => x.withRecords home table ordinal) rest

theorem State.Sought.allSeeking (h : s.Sought v i r fs) (record : (s.slot i).record = some (.parcel p)) :
    v.AllSeeking [i] := by
  refine ⟨List.nodup_singleton i, fun j inList => ?_⟩
  obtain rfl := List.mem_singleton.1 inList
  rw [h.slot]
  exact ⟨rfl, p, record⟩

/-- What the end of the try leaves of the rate position's event (R61). -/
theorem State.Sought.took (h : s.Sought v i r fs) (rate : s.ring.rate = i) (others : ∀ j, j ≠ i → e.slot j = v.slot j)
    (length : e.ring.slots.length = v.ring.slots.length) (around : v.SameAround e) (line : e.line = v.line)
    (station : e.station = v.station) : s.Took e.advanceRate i := by
  obtain ⟨ring, -, pending, held, response, configuration, timebase, clock, store, screen⟩ := around
  have same {α : Type} (f : State → α) : f v = f _ := congrArg f h.rest
  refine ⟨fun j other => (others j other).trans (h.others j other), ?_, length.trans h.length,
    pending.trans (same State.pending), held.trans (same State.held), response.trans (same State.response),
    station.trans (same State.station), configuration.trans (same State.configuration),
    timebase.trans (same State.timebase), clock.trans (same State.clock), store.trans (same State.store),
    screen.trans (same State.screen), line.trans (same State.line)⟩
  subst rate
  have whole := ring.trans (congrArg (fun g : Ring => { g with slots := e.ring.slots }) h.ring)
  exact congrArg (fun g : Ring => { g with rate := nextPosition g.rate, pendingCount := g.pendingCount - 1 }) whole

theorem State.Sought.leftWaiting (h : s.Sought v i r fs) (rate : s.ring.rate = i) : s.LeftWaiting v.advanceRate i r fs :=
  ⟨h.took rate (fun _ _ => rfl) rfl ⟨rfl, rfl, rfl, rfl, rfl, rfl, rfl, rfl, rfl, rfl⟩ rfl rfl, h.slot,
    (congrArg State.sequence h.rest).trans rfl, h.unit, h.flags⟩

/-- Its parcel labelled from a lot (R110, R166, R169). -/
theorem State.Sought.labelled (h : s.Sought v i r fs) (rate : s.ring.rate = i) (record : (s.slot i).record = some (.parcel p))
    (noLink : (s.slot i).link = none) {d : Departure} {q : Request} {mark : Bool} {n : Nat}
    (labels : v.Labels e [i] (d.fields q mark) noNumberText n) : s.Labelled e.advanceRate i p r fs d n mark := by
  obtain ⟨p', record', slot⟩ := labels.labelled 0 i rfl
  rw [h.slot] at record' slot
  obtain rfl : p' = p := by cases record'.symm.trans record; rfl
  have config : v.config = s.config := by rw [State.config, h.rest]; rfl
  have unit : e.unit = _ := congrArg State.unit labels.rest
  have around : v.SameAround e := by
    refine ⟨congrArg State.ring labels.rest, by rw [unit], ?_⟩
    rw [labels.rest]
    exact ⟨rfl, rfl, rfl, rfl, rfl, rfl, rfl, rfl⟩
  have slot' : e.advanceRate.slot i = _ := slot
  refine ⟨h.took rate (fun j other => labels.others j (by simpa using other)) labels.length around (by rw [labels.rest])
    (by rw [labels.rest]), ?_⟩
  rw [slot', config]
  refine ⟨rfl, record, rfl, ⟨_, rfl, rfl, rfl, rfl, rfl, ?_, rfl, rfl, rfl, rfl, rfl, rfl, rfl, rfl, rfl, rfl, rfl, rfl, rfl,
    rfl, rfl, rfl, rfl, rfl, rfl⟩, congrArg State.sequence labels.rest, ?_, ?_⟩
  · show (match (s.slot i).link with | some l => l.piece | none => 0) = 0
    rw [noLink]
  · show e.unit = { s.unit with summary := e.unit.summary, labelsIssued := min (s.unit.labelsIssued + 1) 65535 }
    rw [unit, h.unit]
    rfl
  · show SetExactly _ e.unit.summary fs
    rw [unit]
    exact h.flags

/-- Its parcel refused, with flags raised before (R86, R87, R167). -/
theorem State.Sought.unplaced (h : s.Sought v i r fs) (rate : s.ring.rate = i) {w : BitVec 16} {why : Reason}
    (raised : SetExactly v.unit.summary w fs')
    (refuses : ({ v with unit := { v.unit with summary := w } } : State).Refuses e [i] why) :
    s.Unplaced e.advanceRate i r why (fs ++ fs') := by
  have unit := refuses.unit
  have around : v.SameAround e := by
    refine ⟨refuses.ring, by rw [unit], ?_⟩
    rw [refuses.rest]
    exact ⟨rfl, rfl, rfl, rfl, rfl, rfl, rfl, rfl⟩
  refine ⟨h.took rate (fun j other => refuses.others j (by simpa using other)) refuses.length around
    (by rw [refuses.rest]) (by rw [refuses.rest]), ?_, ?_, ?_, ?_⟩
  · have refused := (refuses.refused i List.mem_cons_self).1
    rw [show ({ v with unit := { v.unit with summary := w } } : State).slot i = _ from h.slot] at refused
    exact refused
  · show e.sequence = s.sequence
    rw [refuses.rest, h.rest]
  · show e.unit = { s.unit with summary := e.unit.summary, recordsRefused := min (s.unit.recordsRefused + 1) 65535 }
    rw [unit, h.unit]
    rfl
  · show SetExactly _ e.unit.summary _
    rw [unit]
    exact h.flags.trans raised

/-! ### The rating of the record and its request -/

/-- The state with its ring and rating unit replaced. -/
def State.withRing (s : State) (g : Ring) (w : RatingUnit) : State := { s with ring := g, unit := w }

theorem ratedAt_withRing (s : State) (i : Nat) (r : RatingResult) (fs : List Flag) : (s.counted.ratedAt i r fs).seek i =
    s.withRing ((s.counted.ratedAt i r fs).seek i).ring ((s.counted.ratedAt i r fs).seek i).unit := by
  have raised := raiseAll_eq (s.counted.writeRating i (some r)) fs
  rw [State.ratedAt, raised]
  rfl

/-- The rated parcel SEEKING. -/
theorem sought_ratedAt {s : State} {i : Nat} (inRing : i < s.ring.slots.length) (r : RatingResult) (fs : List Flag) :
    s.Sought ((s.counted.ratedAt i r fs).seek i) i r fs := by
  have slots := slot_ratedAt (s := s.counted) inRing r fs
  have step := (slotStep_ratedAt s.counted i r fs).trans (SlotStep.updateSlot _ i fun x => { x with tag := .seeking })
  have inRated : i < (s.counted.ratedAt i r fs).ring.slots.length := by
    rw [(slotStep_ratedAt s.counted i r fs).length]; exact inRing
  have seek (j : Nat) := slot_updateSlot (s.counted.ratedAt i r fs) i j fun x => { x with tag := .seeking }
  refine ⟨?_, fun j other => ?_, step.length, setExactly_ratedAt s.counted i r fs, step.ring, ratedAt_unit s.counted i r fs, ?_⟩
  · refine ((seek i).trans (if_pos ⟨rfl, inRated⟩)).trans ?_
    rw [slots, if_pos rfl]
    rfl
  · refine ((seek j).trans (if_neg fun h => other h.1)).trans ?_
    rw [slots, if_neg other]
    rfl
  · rw [ratedAt_withRing]
    rfl

/-- The station as it rates a parcel alone. -/
structure State.RatesAlone (s : State) (t : Tariff) (i : Nat) (p : ParcelRecord) (r : RatingResult) (fs : List Flag) : Prop where
  takes : s.AboutToTake t i (.parcel p)
  notFirst : p.pieceMark ≠ 1
  notMiddle : p.pieceMark ≠ 2
  notLast : p.pieceMark ≠ 3
  noneOpen : s.ring.consignment = none
  rated : rateRecord t (s.screen.getD (.places false [])) ⟨s.config.restrictedMask, s.config.overflowMask⟩ none p = (r, fs)
  accepted : r.refusal = none

/-- The request that a parcel alone makes (R104). -/
def State.aloneRequest (s : State) (t : Tariff) (i : Nat) (p : ParcelRecord) (r : RatingResult) : Request :=
  ⟨[i], s.ring.takings + 1, p.service, r.route, ⟨p.weight, r.litres, 1⟩, candidatesOf t s.minute r.route p.service, 0, none⟩

theorem State.RatesAlone.runs (h : s.RatesAlone t i p r fs) : exec .ratePositionActs s =
    .next (((s.counted.ratedAt i r fs).seek i).tryAll (s.aloneRequest t i p r)
      (candidatesOf t s.minute r.route p.service)).advanceRate := by
  obtain ⟨takes, notFirst, notMiddle, notLast, noneOpen, rated, accepted⟩ := h
  have rating : s.counted.rateAlone t i p =
      ((s.counted.ratedAt i r fs).seek i).dispatch t [i] p.service r.route := by
    rw [State.rateAlone, show rateRecord t s.counted.activeScreen s.counted.ratingMasks none p = (r, fs) from rated]
    simp only [accepted]
    rfl
  rw [exec_ratePosition takes, takeRecord_alone (s := s.counted) notFirst notMiddle notLast noneOpen, rating]
  obtain ⟨-, -, -, -, -, queued, record⟩ := takes
  have sought := sought_ratedAt (lt_of_engineOwns (engineOwns_of_queued queued)) r fs
  have share : (((s.counted.ratedAt i r fs).seek i).slot i).share = ⟨p.weight, r.litres, 1⟩ := by
    rw [sought.slot]
    simp only [Slot.share, record]
  have made : ((s.counted.ratedAt i r fs).seek i).makeRequest t [i] ((s.counted.ratedAt i r fs).seek i).ring.takings
      p.service r.route = s.aloneRequest t i p r := by
    have minute : ((s.counted.ratedAt i r fs).seek i).minute = s.minute := by rw [sought.rest]; rfl
    have takings : ((s.counted.ratedAt i r fs).seek i).ring.takings = s.ring.takings + 1 := by rw [sought.ring]
    rw [State.makeRequest, minute, takings, List.map_singleton, share, State.aloneRequest]
    simp [Figures.plus, Figures.zero]
  rw [State.dispatch, made]
  rfl

end

end Sys2Proof.Machine

end

section
/-! Settles O45 and O46: a parcel alone, rated, goes through its candidates (R86, R87, R104 to R110). -/

namespace Sys2Proof.Machine

/-! ### The candidates passed over do not see the ring -/

section
variable {s v e : State} {t : Tariff} {i : Nat} {p : ParcelRecord} {r : RatingResult} {fs : List Flag} {c : Candidate}

theorem passing_quiet (quiet : c.cutOff ≤ s.minute ∨ s.homeOf c.lot = s.own) : s.passing [c] = s := if_pos quiet

theorem passing_unnamed (unnamed : s.entryOf c.lot = none) : s.passing [c] = s := by
  rw [State.passing, unnamed]
  split <;> rfl

theorem passing_named {k : Nat} (tried : ¬ (c.cutOff ≤ s.minute ∨ s.homeOf c.lot = s.own)) (named : s.entryOf c.lot = some k) :
    s.passing [c] = s.useEntry k := by
  rw [State.passing, if_neg tried, named]
  rfl

theorem passing_withRing (s : State) (g : Ring) (w : RatingUnit) (cs : List Candidate) :
    (s.withRing g w).passing cs = (s.passing cs).withRing g w := by
  induction cs generalizing s with
  | nil => rfl
  | cons c cs ih =>
    have one : (s.withRing g w).passing [c] = (s.passing [c]).withRing g w := by
      by_cases quiet : c.cutOff ≤ s.minute ∨ s.homeOf c.lot = s.own
      · rw [passing_quiet quiet, passing_quiet (s := s.withRing g w) quiet]
      · cases named : s.entryOf c.lot with
        | none => rw [passing_unnamed named, passing_unnamed (s := s.withRing g w) named]
        | some k =>
          rw [passing_named quiet named, passing_named (s := s.withRing g w) quiet named]
          rfl
    rw [passing_cons, passing_cons s, one, ih]

/-- The state that a parcel alone is sought in, after the candidates `pre` (R61, R63, R97). -/
theorem State.RatesAlone.past (h : s.RatesAlone t i p r fs) {pre rest : List Candidate}
    (passes : ∀ x ∈ pre, s.Passes ⟨p.weight, r.litres, 1⟩ x)
    (candidates : candidatesOf t s.minute r.route p.service = pre ++ rest) :
    ∃ v, s.Sought v i r fs ∧ v = (s.passing pre).withRing v.ring v.unit ∧
      exec .ratePositionActs s = Host.Outcome.next (v.tryAll { s.aloneRequest t i p r with next := pre.length } rest).advanceRate := by
  have running := h.runs
  obtain ⟨-, -, -, -, -, queued, -⟩ := h.takes
  have sought := sought_ratedAt (lt_of_engineOwns (engineOwns_of_queued queued)) r fs
  have whole := ratedAt_withRing s i r fs
  rw [candidates, whole] at running
  rw [whole] at sought
  generalize ((s.counted.ratedAt i r fs).seek i).ring = g at running sought
  generalize ((s.counted.ratedAt i r fs).seek i).unit = w at running sought
  rw [tryAll_passing (s := s.withRing g w) passes, passing_withRing] at running
  have past := sought.withRecords s.home (s.passing pre).table (s.passing pre).ordinal
  have same : (s.withRing g w).withRecords s.home (s.passing pre).table (s.passing pre).ordinal =
      (s.passing pre).withRing g w := by
    conv_rhs => rw [passing_eq]
    rfl
  rw [same] at past
  refine ⟨_, past, rfl, running.trans ?_⟩
  rw [show (s.aloneRequest t i p r).next + pre.length = pre.length from Nat.zero_add _]

theorem State.Tries.ofRing {u x : State} {lot : Nat} {d : Departure} {q : Request} {waits : Prop} {labelled : Nat → Bool → Prop}
    {unnumbered : Prop} (past : v = x.withRing v.ring v.unit) (tries : v.Tries u lot d q waits labelled unnumbered) :
    x.Tries u lot d q waits labelled unnumbered := by
  rw [past] at tries
  exact tries

/-- The ends of the parcel's try at the rate position. -/
theorem State.Sought.tryEnds (sought : s.Sought v i r fs) (rate : s.ring.rate = i)
    (record : (s.slot i).record = some (.parcel p)) (noLink : (s.slot i).link = none) {q : Request} (members : q.members = [i])
    (d : Departure) : TryEnds v e q d (s.LeftWaiting e.advanceRate i r fs)
      (fun n mark => s.Labelled e.advanceRate i p r fs d n mark) (s.Unplaced e.advanceRate i r .noNumber (fs ++ [.noNumber])) := by
  have all (home : List HomeRecord) (table : List LotEntry) (ordinal : Nat) :
      (v.withRecords home table ordinal).AllSeeking q.members := by
    rw [members]
    exact (sought.allSeeking record).withRecords home table ordinal
  refine ⟨fun home table ordinal ended => ?_, fun home table ordinal n mark ended counter _ => ?_,
    fun home table ordinal ended => ?_⟩
  · rw [ended]
    exact (sought.withRecords home table ordinal).leftWaiting rate
  · have labels := labels_labelRequest (all home table ordinal) counter (d.fields q mark)
    have alone : (v.withRecords home table ordinal).consignmentNumber q n = noNumberText :=
      if_pos (by rw [Request.pieces, members]; exact Nat.le_refl 1)
    rw [alone, ← ended, members] at labels
    exact (sought.withRecords home table ordinal).labelled rate record noLink labels
  · have refuses : ((v.withRecords home table ordinal).raise .noNumber).Refuses e q.members .noNumber := by
      rw [ended]
      exact refuses_refuseSeeking (allSeeking_raise (all home table ordinal) .noNumber) _ _
    rw [members] at refuses
    exact (sought.withRecords home table ordinal).unplaced rate (setExactly_setFlag _ _) refuses

/-- What the end of a parcel without a lot leaves (R86, R87, R109). -/
structure State.EndsAlone (v e : State) (i : Nat) (p : ParcelRecord) (route : Nat) (pending : Bool) (c : Completion)
    (sequence : Option Nat) (fs : List Flag) : Prop where
  slot : e.slot i = (v.slot i).completed p (some (DispatchFields.routeOnly route pending)) c
  others : ∀ j, j ≠ i → e.slot j = v.slot j
  length : e.ring.slots.length = v.ring.slots.length
  around : v.SameAround e
  lots : LotsStay v e
  sequence : e.sequence = sequence
  flags : SetExactly v.unit.summary e.unit.summary fs

theorem endsAlone_refused {w : BitVec 16} {why : Reason} {route : Nat} (seeking : v.AllSeeking [i])
    (record : (v.slot i).record = some (.parcel p)) (flags : SetExactly v.unit.summary w fs)
    (ended : e = ({ v with unit := { v.unit with summary := w } } : State).refuseSeeking [i]
      (some (DispatchFields.routeOnly route false)) why) :
    v.EndsAlone e i p route false (.refused why) v.sequence fs := by
  have all : ({ v with unit := { v.unit with summary := w } } : State).AllSeeking [i] := ⟨seeking.nodup, seeking.seeking⟩
  have refuses := refuses_refuseSeeking all (some (DispatchFields.routeOnly route false)) why
  rw [← ended] at refuses
  obtain ⟨⟨-, -, sequence, -, -, raised, around⟩, lots⟩ := membersRefused_raised rfl flags refuses
  refine ⟨?_, fun j other => refuses.others j (by simpa using other), refuses.length, around, lots, sequence, raised⟩
  obtain ⟨p', record', slot⟩ := slot_completeAll (all.mayComplete (refusals_slots [i]
    (some (DispatchFields.routeOnly route false)) why)) (x := (i, some (DispatchFields.routeOnly route false), .refused why))
    List.mem_cons_self
  obtain rfl : p' = p := by cases record'.symm.trans record; rfl
  rw [ended, refuseSeeking_eq all]
  exact slot

theorem endsAlone_pending {n : Nat} {q : Request} {consignment : Bytes} (record : (v.slot i).record = some (.parcel p))
    (members : q.members = [i])
    (labels : (v.raise .noDispatch).Labels e q.members (DispatchFields.routeOnly q.route true) consignment n) :
    v.EndsAlone e i p q.route true (.labelled (trackingNumber v.config n) consignment) (some (n + 1)) [.noDispatch] := by
  obtain ⟨⟨-, others, sequence, -, -, flags, around⟩, lots⟩ := pending_of_labels labels
  rw [members] at others sequence
  refine ⟨?_, fun j other => others j (by simpa using other), labels.length, around, lots, sequence, flags⟩
  obtain ⟨p', record', slot⟩ := labels.labelled 0 i (by rw [members]; rfl)
  obtain rfl : p' = p := by cases record'.symm.trans record; rfl
  exact slot

/-- A parcel alone that has no candidate left, by the mask and the counter. -/
theorem endsAlone_settleNoDispatch {n : Nat} {q : Request} (seeking : v.AllSeeking [i])
    (record : (v.slot i).record = some (.parcel p)) (members : q.members = [i]) (counter : v.sequence = some n) :
    (v.config.noDispatchMask = false →
      v.EndsAlone (v.settleNoDispatch q) i p q.route false (.refused .noDispatch) (some n) [.noDispatch]) ∧
    (v.config.noDispatchMask = true → n < 100000 → ∃ consignment, v.EndsAlone (v.settleNoDispatch q) i p q.route true
      (.labelled (trackingNumber v.config n) consignment) (some (n + 1)) [.noDispatch]) ∧
    (v.config.noDispatchMask = true → 100000 ≤ n →
      v.EndsAlone (v.settleNoDispatch q) i p q.route false (.refused .noNumber) (some n) [.noDispatch, .noNumber]) := by
  have covers := canCover_iff (s := v.raise .noDispatch) (k := q.pieces) counter
  have pieces : q.pieces = 1 := by rw [Request.pieces, members]; rfl
  have masked (mask : v.config.noDispatchMask = true) : v.settleNoDispatch q =
      if (v.raise .noDispatch).canCover q.pieces then
        (v.raise .noDispatch).labelRequest q (DispatchFields.routeOnly q.route true)
      else (v.raise .noDispatch).refuseNoNumber q := if_pos mask
  rw [pieces] at covers
  refine ⟨fun mask => ?_, fun mask covered => ?_, fun mask short => ?_⟩
  · rw [← counter]
    refine endsAlone_refused seeking record (setExactly_setFlag _ .noDispatch) ?_
    rw [← members]
    exact if_neg (by rw [show (v.raise .noDispatch).config = v.config from rfl, mask]; exact Bool.false_ne_true)
  · rw [masked mask, pieces, if_pos (covers.2 covered)]
    have all : (v.raise .noDispatch).AllSeeking q.members := by rw [members]; exact allSeeking_raise seeking _
    exact ⟨_, endsAlone_pending record members (labels_labelRequest all counter _)⟩
  · rw [masked mask, pieces, if_neg fun h => absurd (covers.1 h) (Nat.not_le.2 (Nat.lt_succ_of_le short)), ← counter]
    refine endsAlone_refused seeking record ((setExactly_setFlag _ .noDispatch).trans (setExactly_setFlag _ .noNumber)) ?_
    rw [← members]
    rfl

/-- The label of a parcel without a lot (R91). -/
theorem formLabel_routeOnly (p : ParcelRecord) (link : Option Link) (r : RatingResult) (route : Nat) (pending : Bool)
    {c : Completion} (ends : c.reason = none ∨ c.reason = some .noDispatch ∨ c.reason = some .noNumber) :
    let l := formLabel p link (some r) (some (DispatchFields.routeOnly route pending)) c
    l.charge = r.charge ∧ l.route = r.route ∧ l.departure = 0 ∧ l.cutOff = 0 ∧ l.lot = 0 ∧ l.reclaimedLot = false := by
  obtain why | why | why := ends <;> simp [formLabel, why, meant, chargeHasMeaning, routeHasMeaning, DispatchFields.routeOnly]

theorem State.Took.advanced {u : State} (took : s.Took u i) (rate : s.ring.rate = i) : s.ring.Advanced u.ring := by
  obtain ⟨-, ring, length, -⟩ := took
  subst rate
  exact ⟨(congrArg Ring.put ring).trans rfl, (congrArg Ring.rate ring).trans rfl,
    (congrArg Ring.pendingCount ring).trans rfl, length⟩

/-- What the rate position's event leaves of a parcel without a lot (R61, R91). -/
theorem State.Sought.withoutLot {u : State} {pending : Bool} {c : Completion} {sequence : Option Nat} {fs' : List Flag}
    (sought : s.Sought v i r fs) (rate : s.ring.rate = i) (ends : v.EndsAlone e i p r.route pending c sequence fs')
    (why : c.reason = none ∨ c.reason = some .noDispatch ∨ c.reason = some .noNumber) (after : u = e.advanceRate) :
    ∃ l, (u.slot i).tag = .complete ∧ (u.slot i).label = some l ∧
      (l.charge = r.charge ∧ l.route = r.route ∧ l.departure = 0 ∧ l.cutOff = 0 ∧ l.lot = 0 ∧ l.reclaimedLot = false) ∧
      (l.refusal = c.reason ∧ l.dispatchPending = (c.reason.isNone && pending) ∧
        l.trackingNumber = (match c with | .labelled number _ => number | .refused _ => noNumberText) ∧
        u.sequence = sequence ∧ SetExactly s.unit.summary u.unit.summary (fs ++ fs')) ∧
      (∀ j, j ≠ i → u.slot j = s.slot j) ∧ s.ring.Advanced u.ring ∧ u.home = v.home ∧ u.table = v.table ∧
      u.line = s.line ∧ u.screen = s.screen ∧ u.store = s.store ∧ u.clock = s.clock ∧ u.station = s.station ∧
      u.configuration = s.configuration ∧ u.response = s.response := by
  subst after
  have slot : e.advanceRate.slot i = _ := ends.slot
  rw [sought.slot] at slot
  have took := sought.took rate ends.others ends.length ends.around ends.lots.line ends.lots.station
  have advanced := took.advanced rate
  obtain ⟨others, -, -, -, -, response, station, configuration, -, clock, store, screen, line⟩ := took
  rw [slot]
  exact ⟨_, rfl, rfl, formLabel_routeOnly p _ r r.route pending why, ⟨rfl, rfl, by cases c <;> rfl, ends.sequence,
    sought.flags.trans ends.flags⟩, others, advanced, ends.lots.home, ends.lots.table, line, screen, store, clock, station,
    configuration, response⟩

/-- A parcel refused NoDispatch under a clear mask (R86, R109). -/
theorem State.Sought.undispatched (sought : s.Sought v i r fs) (rate : s.ring.rate = i)
    (record : (s.slot i).record = some (.parcel p)) {q : Request} (members : q.members = [i])
    (mask : s.config.noDispatchMask = false) : s.Undispatched (v.settleNoDispatch q).advanceRate i r fs ∧
      (v.settleNoDispatch q).advanceRate.home = v.home ∧ (v.settleNoDispatch q).advanceRate.table = v.table := by
  have all : v.AllSeeking q.members := by rw [members]; exact sought.allSeeking record
  have config : v.config = s.config := (congrArg State.config sought.rest).trans rfl
  have refuses : (v.raise .noDispatch).Refuses (v.settleNoDispatch q) q.members .noDispatch := by
    have refused : v.settleNoDispatch q = (v.raise .noDispatch).refuseSeeking q.members
        (some (DispatchFields.routeOnly q.route false)) .noDispatch :=
      if_neg (by rw [show (v.raise .noDispatch).config = v.config from rfl, config, mask]; exact Bool.false_ne_true)
    rw [refused]
    exact refuses_refuseSeeking (allSeeking_raise all _) _ _
  rw [members] at refuses
  have lots := (settleNoDispatch_spec (q := q) all).2
  exact ⟨sought.unplaced rate (setExactly_setFlag _ _) refuses, lots.home, lots.table⟩

end

/-- Settles O45: the try of the first candidate that the parcel does not pass over. -/
theorem singleLabelledFromALotAtHome : Obligations.SingleLabelledFromALotAtHome := by
  intro s t i p r fs pre c cs d takes notFirst notMiddle notLast noneOpen rated accepted candidates passes plan early noLink q
  obtain ⟨v, sought, past, runs⟩ := State.RatesAlone.past ⟨takes, notFirst, notMiddle, notLast, noneOpen, rated, accepted⟩
    passes candidates
  obtain ⟨-, -, -, rate, -, -, record⟩ := takes
  have minute : v.minute = s.minute := by rw [sought.rest]; rfl
  have inTime : s.minute < c.cutOff := cutOff_of_candidate (t := t) (route := r.route) (service := p.service) (by
    rw [candidates]; exact List.mem_append_right _ List.mem_cons_self)
  have plan' : v.planLot c.lot = some d := by rw [sought.rest]; exact plan
  have tries := tries_tryAll (cs := cs) plan' (by rw [minute]; exact early) (by rw [minute]; exact inTime)
    (sought.tryEnds rate record noLink (q := { s.aloneRequest t i p r with next := pre.length }) rfl d) rfl rfl
  have request : { s.aloneRequest t i p r with next := pre.length, waitingOn := some c.lot } = q := by
    rw [State.aloneRequest, candidates]
  rw [← request]
  exact ⟨_, runs, tries.ofRing past⟩

/-! ### The candidate list and the parcel without a lot -/

/-- What a request may take: the departures in cut-off order, at most four, none earlier left out (R105). -/
theorem candidatesOf_spec {t : Tariff} {minute route service : Nat}
    (plan : t.plan.Pairwise (fun a b => a.route = b.route → a.cutOff < b.cutOff)) :
    let cs := candidatesOf t minute route service
    cs.length ≤ 4 ∧ cs.Pairwise (fun a b => a.cutOff < b.cutOff) ∧
    (∀ c ∈ cs, ∃ d ∈ t.plan, d.admitted minute route service = true ∧ c = ⟨d.route * 8 + d.index, d.cutOff⟩) ∧
    (∀ d ∈ t.plan, d.admitted minute route service = true → (⟨d.route * 8 + d.index, d.cutOff⟩ : Candidate) ∈ cs ∨
      (cs.length = 4 ∧ ∀ c ∈ cs, c.cutOff < d.cutOff)) := by
  intro cs
  have order := pairwise_admitted (minute := minute) (route := route) (service := service) plan
  refine ⟨?_, ?_, fun c inList => ?_, fun d inPlan admitted => ?_⟩
  · rw [show cs = _ from candidatesOf_eq t minute route service, List.length_map]
    exact List.length_take_le _ _
  · exact List.pairwise_map.2 (order.sublist (List.take_sublist 4 _))
  · obtain ⟨d, inTake, rfl⟩ := List.mem_map.1 inList
    obtain ⟨inPlan, admitted⟩ := List.mem_filter.1 (List.mem_of_mem_take inTake)
    exact ⟨d, inPlan, admitted, rfl⟩
  · have inFilter := List.mem_filter.2 ⟨inPlan, admitted⟩
    rw [← List.take_append_drop 4 (t.plan.filter _)] at inFilter order
    obtain inTake | inDrop := List.mem_append.1 inFilter
    · exact .inl (List.mem_map_of_mem inTake)
    · refine .inr ⟨?_, fun c inList => ?_⟩
      · have longer := List.length_pos_of_mem inDrop
        rw [show cs = _ from candidatesOf_eq t minute route service, List.length_map, List.length_take]
        rw [List.length_drop] at longer
        omega
      · obtain ⟨x, inTake, rfl⟩ := List.mem_map.1 inList
        exact (List.pairwise_append.1 order).2.2 x inTake d inDrop

/-- Settles O46: the candidate list by its filter; the parcel by the station it is sought in. -/
theorem singleWithoutCandidate : Obligations.SingleWithoutCandidate := by
  refine ⟨fun t minute route service plan => ?_, fun s t i p r fs n takes notFirst notMiddle notLast noneOpen rated
    accepted counter => ⟨fun passes => ?_, fun pre c cs d candidates passes plan early foreign mask => ?_⟩⟩
  · obtain ⟨length, order, sound, complete⟩ := candidatesOf_spec (minute := minute) (route := route) (service := service) plan
    refine ⟨length, order, fun c inList => ?_, fun d ⟨inPlan, admitted⟩ => complete d inPlan ((admitted_iff _ _ _ _).2 admitted)⟩
    obtain ⟨d, inPlan, admitted, same⟩ := sound c inList
    exact ⟨d, ⟨inPlan, (admitted_iff _ _ _ _).1 admitted⟩, same⟩
  · obtain ⟨v, sought, past, runs⟩ := State.RatesAlone.past (rest := [])
      ⟨takes, notFirst, notMiddle, notLast, noneOpen, rated, accepted⟩ passes (List.append_nil _).symm
    obtain ⟨-, -, -, rate, -, -, record⟩ := takes
    rw [State.tryAll] at runs
    have same {α : Type} (f : State → α) : f v = f _ := congrArg f sought.rest
    have config : v.config = s.config := same State.config
    have record' : (v.slot i).record = some (.parcel p) := by rw [sought.slot]; exact record
    obtain ⟨refused, pending, short⟩ := endsAlone_settleNoDispatch
      (q := { s.aloneRequest t i p r with next := (candidatesOf t s.minute r.route p.service).length })
      (sought.allSeeking record) record' rfl ((same State.sequence).trans counter)
    rw [config] at refused pending short
    have home : v.home = s.home := by rw [past, passing_eq]; rfl
    have table : v.table = (s.passing (candidatesOf t s.minute r.route p.service)).table :=
      (congrArg State.table past).trans rfl
    rw [← home, ← table]
    cases mask : s.config.noDispatchMask with
    | false =>
      obtain ⟨l, complete, label, ⟨charge, route, departure, cutOff, lot, reclaimed⟩, ended, tail⟩ :=
        sought.withoutLot rate (refused mask) (.inr (.inl rfl)) rfl
      exact ⟨_, l, runs, complete, label, charge, route, departure, cutOff, lot, reclaimed, fun _ => ended, nofun, nofun,
        tail⟩
    | true =>
      obtain covered | tooFew := Nat.lt_or_ge n 100000
      · obtain ⟨consignment, ends⟩ := pending mask covered
        obtain ⟨l, complete, label, ⟨charge, route, departure, cutOff, lot, reclaimed⟩, ended, tail⟩ :=
          sought.withoutLot rate ends (.inl rfl) rfl
        exact ⟨_, l, runs, complete, label, charge, route, departure, cutOff, lot, reclaimed, nofun, fun _ _ => ended,
          fun _ h => absurd h (Nat.not_le.2 covered), tail⟩
      · obtain ⟨l, complete, label, ⟨charge, route, departure, cutOff, lot, reclaimed⟩, ended, tail⟩ :=
          sought.withoutLot rate (short mask tooFew) (.inr (.inr rfl)) rfl
        exact ⟨_, l, runs, complete, label, charge, route, departure, cutOff, lot, reclaimed, nofun,
          fun _ h => absurd h (Nat.not_lt.2 tooFew), fun _ _ => ended, tail⟩
  · obtain ⟨v, sought, past, runs⟩ := State.RatesAlone.past
      ⟨takes, notFirst, notMiddle, notLast, noneOpen, rated, accepted⟩ passes candidates
    obtain ⟨-, -, -, rate, -, -, record⟩ := takes
    have inTime : s.minute < c.cutOff := cutOff_of_candidate (t := t) (route := r.route) (service := p.service) (by
      rw [candidates]; exact List.mem_append_right _ List.mem_cons_self)
    have config : v.config = s.config := (congrArg State.config sought.rest).trans rfl
    have home : v.home = s.home := by rw [past, passing_eq]; rfl
    have table : v.table = (s.passing pre).table := (congrArg State.table past).trans rfl
    have plan' : v.planLot c.lot = some d := (congrArg (State.planLot · c.lot) sought.rest).trans plan
    have minute : v.minute = s.minute := (congrArg State.minute sought.rest).trans rfl
    have foreign' : v.homeOf c.lot ≠ v.own := by
      rw [homeOf_eq plan', show v.own = s.own from (congrArg State.own sought.rest).trans rfl]
      exact foreign
    have entry : v.entryOf c.lot = s.entryOf c.lot := by
      rw [past]
      exact entryOf_passing s pre c.lot
    intro past' refused
    refine ⟨fun k e last named found passed => ?_, fun unnamed noIncoming noneFree noneCast => ?_⟩
    · have passed' : v.EntryPasses ⟨p.weight, r.litres, 1⟩ e := by
        rw [sought.rest]
        exact passed
      have tried : ¬ (c.cutOff ≤ v.minute ∨ v.homeOf c.lot = v.own) := by
        rw [minute]
        exact not_or.2 ⟨Nat.not_le.2 inTime, foreign'⟩
      have went := tryAll_passing (s := v) (q := { s.aloneRequest t i p r with next := pre.length }) (pre := [c])
        (fun x inList => by
          obtain rfl := List.mem_singleton.1 inList
          exact .inr (.inr ⟨foreign', k, e, entry.trans named, by rw [table]; exact found, passed'⟩)) []
      rw [List.append_nil, State.tryAll, passing_named tried (entry.trans named)] at went
      rw [last, went] at runs
      have used := sought.withRecords v.home (v.table.modify k fun e => { e with lastUse := v.ordinal }) (v.ordinal + 1)
      obtain ⟨ended, sameHome, sameTable⟩ := used.undispatched rate record (q := { s.aloneRequest t i p r with
        next := pre.length + [c].length }) rfl mask
      refine ⟨_, runs, ended, sameHome.trans home, sameTable.trans ?_⟩
      rw [← table, ← show v.ordinal = past'.ordinal from (congrArg State.ordinal past).trans rfl]
      exact modify_of_getElem? (by rw [table]; exact found) _
    · rw [tryAll_noEntry plan' (by rw [minute]; exact inTime) (fun h => foreign' ((homeOf_eq plan').trans h))
        (entry.trans unnamed) (by rw [past]; exact incomingOf_passing s pre c.lot noIncoming)
        (by rw [past]; exact mayReplace_passing pre noneFree) (by rw [past]; exact mayCastOut_passing pre noneCast)] at runs
      obtain ⟨ended, sameHome, sameTable⟩ := sought.undispatched rate record (q := { s.aloneRequest t i p r with
        next := pre.length }) rfl mask
      exact ⟨_, runs, ended, sameHome.trans home, sameTable.trans table⟩

end Sys2Proof.Machine

end

section
/-! Settles O50: what each timer's expiry does while it runs (R130 to R132, R138, R145, R155, R159, R161). -/

namespace Sys2Proof.Machine

section
variable {s : State} {i lot : Nat} {e : LotEntry} {r : HomeRecord}

theorem exec_fetchTimerExpires (running : s.held = false) (ref : RecordRef) :
    exec (.fetchTimerExpires ref) s = .next (s.fetchExpiry ref) := congrArg _ (State.whenRunning_running _ running)

theorem exec_publishTimerExpires (running : s.held = false) (i : Nat) :
    exec (.publishTimerExpires i) s = .next (s.publishExpiry i) := congrArg _ (State.whenRunning_running _ running)

/-- A frame other than HANDOVER and TALLY queued where none is pending. -/
theorem LotEntry.queued_fresh (noFrame : e.frame = none) {f : PendingFrame} (notHandover : (f.kind == .handover) = false)
    (notTally : (f.kind == .tally) = false) : e.queued f = { e with frame := some f } := by
  rw [LotEntry.queued_of_queueable (by rw [noFrame]; rfl), notHandover, notTally, Bool.or_false]
  rfl

theorem HomeRecord.queued_fresh (noFrame : r.frame = none) {f : PendingFrame} (notHandover : (f.kind == .handover) = false) :
    r.queued f = { r with frame := some f } := by
  rw [HomeRecord.queued_of_queueable (by rw [noFrame]; rfl), notHandover, Bool.or_false]

/-- The entry whose asking has failed (R131). -/
def LotEntry.gaveUp (e : LotEntry) (queuedAt untilWhen : Nat) : LotEntry :=
  { e with
    state := if e.figures = none then .free else .copy
    attempts := 0, fetchTimer := none, frame := some ⟨.stall, 0, queuedAt⟩, waiting := [], unreachable := some untilWhen }

theorem askingEnds_true (e : LotEntry) : e.askingEnds true =
    { e with state := if e.figures = none then .free else .copy, attempts := 0, fetchTimer := none } := by
  rw [LotEntry.askingEnds]
  cases e.figures <;> rfl

theorem askingFails_eq (found : s.table[i]? = some e) (noFrame : e.frame = none) : s.askingFails i =
    (((s.putEntry i (e.gaveUp s.ordinal (s.timebase + 8 * s.config.fetchTimeout))).nextOrdinal).moveOnAll e.waiting) := by
  have queued := queue_at found .stall 0
  rw [LotEntry.queued_fresh noFrame rfl rfl] at queued
  have now : (s.putEntry i { e with frame := some ⟨.stall, 0, s.ordinal⟩ }).nextOrdinal.table[i]? =
    some { e with frame := some ⟨.stall, 0, s.ordinal⟩ } := at_putEntry found _
  rw [State.askingFails, waitingAt_at found, queued]
  dsimp only
  rw [updateEntry_at now, askingEnds_true]
  refine congrArg (State.moveOnAll · e.waiting) ?_
  exact congrArg State.nextOrdinal (putEntry_putEntry s i { e with frame := some ⟨.stall, 0, s.ordinal⟩ } _)

/-- An expiry at an entry that asks, by the station state and the attempts made (R130, R131, R145). -/
theorem entryExpiry_eq (found : s.table[i]? = some e) (asking : e.state = .asking) (runs : e.fetchTimer.isSome = true) :
    s.entryExpiry i = if s.station = .leaving ∨ s.station = .serving then
        s.putEntry i (({ e with attempts := e.attempts + 1, fetchTimer := none } : LotEntry).askingEnds false)
      else if e.attempts < 2 then
        (s.putEntry i (({ e with attempts := e.attempts + 1, fetchTimer := none } : LotEntry).queued
          ⟨.fetch, 0, s.ordinal⟩)).nextOrdinal
      else (s.putEntry i { e with attempts := e.attempts + 1, fetchTimer := none }).askingFails i := by
  have now := at_putEntry found { e with attempts := e.attempts + 1, fetchTimer := none }
  rw [State.entryExpiry, entry_at found]
  dsimp only
  rw [if_pos ⟨asking, runs⟩, updateEntry_at found, updateEntry_at now, queue_at now, putEntry_putEntry]
  refine if_congr Iff.rfl rfl (if_congr ?_ ?_ rfl)
  · exact Nat.succ_lt_succ_iff (b := 2)
  · exact congrArg State.nextOrdinal (putEntry_putEntry s i { e with attempts := e.attempts + 1, fetchTimer := none } _)

/-- An expiry at a home record that asks (R130, R132). -/
theorem homeExpiry_eq (one : s.OneHome lot r) (asking : r.state = .askingHome) (runs : r.fetchTimer.isSome = true)
    (noFrame : r.frame = none) : s.homeExpiry lot =
      if r.attempts < 2 then (s.putHome lot
        { r with attempts := r.attempts + 1, fetchTimer := none, frame := some ⟨.fetch, 0, s.ordinal⟩ }).nextOrdinal
      else if r.waiting = [] then (s.putHome lot { r with
        state := if r.lastSeen = none then .unknown else .away
        attempts := 0, fetchTimer := none, frame := some ⟨.reclaim, 0, s.ordinal⟩ }).nextOrdinal
      else (s.putHome lot
        { r with attempts := r.attempts + 1, fetchTimer := none, frame := some ⟨.reclaim, 0, s.ordinal⟩ }).nextOrdinal := by
  have named := one.lot_eq
  have now := one.put (r' := { r with attempts := r.attempts + 1, fetchTimer := none }) named
  have queued (k : FrameKind) (notHandover : (k == .handover) = false) :
      (s.putHome lot { r with attempts := r.attempts + 1, fetchTimer := none }).queue (.home lot) k 0 =
        (s.putHome lot { r with attempts := r.attempts + 1, fetchTimer := none, frame := some ⟨k, 0, s.ordinal⟩ }).nextOrdinal := by
    rw [now.queue, HomeRecord.queued_fresh (r := { r with attempts := r.attempts + 1, fetchTimer := none })
      (f := ⟨k, 0, _⟩) noFrame notHandover]
    exact congrArg State.nextOrdinal (putHome_putHome s (r := { r with attempts := r.attempts + 1, fetchTimer := none }) named _)
  rw [State.homeExpiry, one.1]
  dsimp only
  rw [if_pos ⟨asking, runs⟩, one.update, queued .fetch rfl, queued .reclaim rfl]
  refine if_congr ?_ rfl ?_
  · exact Nat.succ_lt_succ_iff (b := 2)
  · have later := one.put (r' := { r with
      attempts := r.attempts + 1, fetchTimer := none, frame := some ⟨.reclaim, 0, s.ordinal⟩ }) named
    have ends : ({ r with
        attempts := r.attempts + 1, fetchTimer := none, frame := some ⟨.reclaim, 0, s.ordinal⟩ } : HomeRecord).askingEnds =
        { r with
          state := if r.lastSeen = none then .unknown else .away
          attempts := 0, fetchTimer := none, frame := some ⟨.reclaim, 0, s.ordinal⟩ } := by
      rw [HomeRecord.askingEnds]
      cases r.lastSeen <;> rfl
    refine if_congr List.isEmpty_iff ?_ rfl
    refine congrArg State.nextOrdinal ((later.update _).trans ?_)
    rw [ends]
    exact putHome_putHome s (r := { r with
      attempts := r.attempts + 1, fetchTimer := none, frame := some ⟨.reclaim, 0, s.ordinal⟩ }) named _

theorem exec_publish_modified (running : s.held = false) (found : s.table[i]? = some e) (runs : e.publishTimer.isSome = true)
    (modified : e.state = .ownedModified) : exec (.publishTimerExpires i) s =
      .next (s.putEntry i (({ e with publishTimer := none } : LotEntry).queued ⟨.notice, 0, s.ordinal⟩)).nextOrdinal := by
  rw [exec_publishTimerExpires running, State.publishExpiry, entry_at found]
  dsimp only
  rw [if_pos runs, if_pos modified, updateEntry_at found, queue_at (at_putEntry found _)]
  exact congrArg (fun x => Host.Outcome.next (State.nextOrdinal x))
    (putEntry_putEntry s i { e with publishTimer := none } _)

theorem exec_faultTimerExpires (running : s.held = false) (faulted : s.line.state = .faulted)
    (runs : s.line.faultTimer.isSome = true) : exec .faultTimerExpires s =
      .next { s with line := { s.line with state := .listen, faultTimer := none } } :=
  congrArg _ ((State.whenRunning_running _ running).trans (if_pos ⟨faulted, runs⟩))

theorem exec_beaconTimerExpires (running : s.held = false) (active : s.line.state = .active)
    (runs : s.line.beaconTimer.isSome = true) : exec .beaconTimerExpires s =
      .next ({ s with line := { s.line with beaconTimer := none } } : State).queueHello :=
  congrArg _ ((State.whenRunning_running _ running).trans (if_pos ⟨active, runs⟩))

theorem exec_absenceTimerExpires {n : Nat} {p : Presence} (running : s.held = false) (found : s.line.presence[n]? = some p)
    (runs : p.absence.isSome = true) : exec (.absenceTimerExpires n) s =
      .next { s with line := { s.line with presence := s.line.presence.set n ⟨false, none⟩ } } := by
  refine congrArg _ ((State.whenRunning_running _ running).trans ?_)
  rw [State.absenceExpiry, modify_of_getElem? found, if_pos runs]

end

/-- Settles O50: each timer by its own expiry; the waiting requests of an asking that fails move on. -/
theorem timersExpire : Obligations.TimersExpire := by
  refine fun s running => ⟨fun i e ready found asking runs noFrame => ?_, fun i e leaving found asking runs => ?_,
    fun lot r one asking runs noFrame => ?_, fun i e found runs modified => ⟨fun noFrame => ?_, fun g frame notice => ?_⟩,
    exec_faultTimerExpires running, fun active runs => ⟨fun noHello => ?_, fun hello => ?_⟩,
    fun n p => exec_absenceTimerExpires running⟩
  · have inService : ¬ (s.station = .leaving ∨ s.station = .serving) := by rw [ready]; decide
    have expires : exec (.fetchTimerExpires (.entry i)) s = _ :=
      (exec_fetchTimerExpires running _).trans (congrArg _ (entryExpiry_eq found asking runs))
    rw [if_neg inService] at expires
    refine ⟨fun few => ?_, fun many => ?_⟩
    · rw [expires, if_pos few, LotEntry.queued_fresh (e := { e with attempts := _, fetchTimer := none }) noFrame rfl rfl]
      rfl
    · have failing := askingFails_eq (s := s.putEntry i { e with attempts := e.attempts + 1, fetchTimer := none })
        (at_putEntry found _) noFrame
      rw [if_neg (Nat.not_lt.2 many), failing, putEntry_putEntry] at expires
      intro failed
      refine ⟨fun none => ?_, fun may => ?_, fun q one may => ?_⟩
      · rw [expires]
        dsimp only
        rw [none]
        rfl
      · have moved := endRefused_moveOnAll (s := { s with table := s.table.set i failed, ordinal := s.ordinal + 1 })
          (qs := e.waiting) may.1 may.2
        exact ⟨_, expires, moved.1, moved.2.table, moved.2.home, moved.2.line, moved.2.station⟩
      · have step := LotStep.moveOn { s with table := s.table.set i failed, ordinal := s.ordinal + 1 } q
        dsimp only at expires
        rw [one] at expires
        exact ⟨_, expires, movesOn_moveOn may rfl, step.line, step.station⟩
  · have expires : exec (.fetchTimerExpires (.entry i)) s = _ :=
      (exec_fetchTimerExpires running _).trans (congrArg _ (entryExpiry_eq found asking runs))
    rw [if_pos leaving] at expires
    refine ⟨fun copied => ?_, fun noFigures waitless => ?_⟩
    · rw [expires, LotEntry.askingEnds, if_pos copied]
      rfl
    · rw [expires, LotEntry.askingEnds, noFigures]
      dsimp only
      rw [waitless]
      rfl
  · have expires : exec (.fetchTimerExpires (.home lot)) s = _ :=
      (exec_fetchTimerExpires running _).trans (congrArg _ (homeExpiry_eq one asking runs noFrame))
    rw [expires]
    refine ⟨fun few => ?_, fun many waits => ?_, fun many waitless => ?_⟩
    · rw [if_pos few]
      rfl
    · rw [if_neg (Nat.not_lt.2 many), if_neg waits]
      rfl
    · rw [if_neg (Nat.not_lt.2 many), if_pos waitless]
      rfl
  · rw [exec_publish_modified running found runs modified, LotEntry.queued_fresh (e := { e with publishTimer := none })
      noFrame rfl rfl]
    rfl
  · rw [exec_publish_modified running found runs modified, LotEntry.queued_of_not]
    · rfl
    · show queueable e.frame .notice = false
      rw [frame]
      show g.kind.yieldsTo .notice = false
      rw [notice]
      rfl
  · rw [exec_beaconTimerExpires running active runs, queueHello_none (s := { s with line := { s.line with
      beaconTimer := none } }) noHello]
  · rw [exec_beaconTimerExpires running active runs, queueHello_some (s := { s with line := { s.line with
      beaconTimer := none } }) hello]

end Sys2Proof.Machine

end

section
/-! Refutes O49. The statement's "the one entry that names a lot" (`State.OneEntry`) is the first that does; where a second
entry names the same lot, which R102 shuts out but the statement does not, the first entry is remade for the next lot
within the event, and the test for TALLY at the end of the cut-off finds the second. -/

namespace Sys2Proof.Machine.CutOffTwice

def rates : RateSection := ⟨[], 1, [], 1, 0, 0, false, 0, 0, 0, ⟨0, 0, 0, 0, 0, 0⟩⟩

/-- The departure of lot 0, whose cut-off comes, and of lot 8, of a later one; both homed at station 1. -/
def due : Departure := ⟨0, 0, 100, ⟨true, true, true⟩, ⟨10, 10, 10⟩, 1⟩
def later : Departure := ⟨1, 0, 200, ⟨true, true, true⟩, ⟨10, 10, 10⟩, 1⟩

def tariff : Tariff := ⟨.down, 1, 0, 65535, [], rates, rates, rates, [], [due, later], .places false []⟩

/-- A request that waits on lot 0 and has lot 8 left. -/
def request : Request := ⟨[], 1, 0, 0, ⟨0, 0, 0⟩, [⟨0, 100⟩, ⟨8, 200⟩], 0, some 0⟩

/-- Two entries of lot 0: one asks for nothing and the request waits there, the other owns the lot. -/
def copied : LotEntry := { LotEntry.cleared with lot := some 0, state := .copy, waiting := [request] }
def owned : LotEntry := { LotEntry.cleared with lot := some 0, state := .owned, figures := some ⟨5, 5, 5⟩ }

def station : State :=
  { State.reset with
    station := .ready, clock := some ⟨99, 0⟩, store := .loaded tariff, table := [copied, owned] }

/-- The frame pending at the second entry after a command. -/
def secondFrame (o : Host.Outcome State Fault Refusal) : Option PendingFrame :=
  match o with
  | .next s => (s.entry 1).frame
  | _ => none

/-- At the cut-off the second entry, which owns the lot, gets its TALLY. -/
theorem secondFrame_clockAdvance : secondFrame (exec .clockAdvance station) = some ⟨.tally, 0, 3⟩ := by decide

theorem mayServe_request : station.MayServe [request] :=
  ⟨by decide, fun q inList i member => by
    obtain rfl := List.mem_singleton.1 inList
    exact absurd member List.not_mem_nil⟩

/-- The first entry is the one that step 1 of R115 takes. -/
theorem leastOf_copied {s : State} (table : s.table = [{ copied with waiting := [] }, owned]) :
    s.LeastOf s.MayReplace (·.lastUse) 0 { copied with waiting := [] } := by
  refine ⟨by rw [table]; rfl, ⟨.inr rfl, rfl, rfl, fun ⟨_, unreachable, _⟩ => by cases unreachable⟩, fun k x found may => ?_⟩
  rw [table] at found
  match k with
  | 0 =>
    obtain rfl := Option.some.inj found
    exact .inr ⟨rfl, Nat.le_refl 0⟩
  | 1 =>
    obtain rfl := Option.some.inj found
    obtain ⟨state, -⟩ := may
    exact absurd state (by decide)
  | k + 2 => cases found

end Sys2Proof.Machine.CutOffTwice

namespace Sys2Proof.Machine

open CutOffTwice

/-- Refutes O49: with two entries naming the lot, the request's next lot takes the first, and the second gets a TALLY that
`State.MovesOn` does not allow. -/
theorem not_clockAdvancesToCutOffs : ¬ Obligations.ClockAdvancesToCutOffs := by
  intro holds
  obtain ⟨-, advances⟩ := holds station ⟨99, 0⟩ rfl rfl
  obtain ⟨-, reaches⟩ := advances (by decide)
  obtain ⟨-, atEntry, -⟩ := reaches tariff due rfl rfl rfl
  obtain ⟨-, -, moves⟩ := atEntry 0 copied ⟨rfl, rfl, rfl⟩ rfl rfl
  obtain ⟨u, ran, -, -, -, tries⟩ := moves request (by decide) (by decide) rfl mayServe_request
  obtain ⟨⟨-, foreign⟩, -⟩ := tries [] ⟨8, 200⟩ [] later rfl (fun _ h => absurd h List.not_mem_nil) rfl rfl (by decide)
  obtain ⟨-, unnamed⟩ := foreign (by decide)
  obtain ⟨-, made⟩ := unnamed rfl
  obtain ⟨replaces, -⟩ := made rfl
  obtain ⟨-, -, table⟩ := replaces 0 _ (leastOf_copied rfl)
  have second := secondFrame_clockAdvance
  rw [ran] at second
  have unsent : (u.entry 1).frame = none := by
    rw [State.entry, table]
    rfl
  rw [secondFrame, unsent] at second
  cases second

end Sys2Proof.Machine

end

section
/-! Settles O59: a TALLY ends the lot, and the requests that waited for it move on (R114). -/

namespace Sys2Proof.Machine

/-! ### Requests gathered from a record's waiting list -/

theorem perm_joinWaiting (q : Request) (ws : List Request) : (joinWaiting q ws).Perm (q :: ws) := by
  induction ws with
  | nil => exact .refl _
  | cons w ws ih =>
    rw [joinWaiting]
    split
    · exact .refl _
    · exact (ih.cons w).trans (.swap q w ws)

theorem perm_foldr_joinWaiting (ws : List Request) : (ws.foldr joinWaiting []).Perm ws := by
  induction ws with
  | nil => exact .refl _
  | cons w ws ih => exact (perm_joinWaiting w _).trans (ih.cons w)

section
variable {s t y : State} {qs ws : List Request} {q : Request}

theorem State.MayServe.perm (may : s.MayServe qs) (perm : qs.Perm ws) : s.MayServe ws :=
  ⟨((perm.flatMap_right (·.members)).nodup_iff).1 may.1, fun q inList => may.2 q (perm.mem_iff.2 inList)⟩

theorem State.MayEnd.perm (may : s.MayEnd qs) (perm : qs.Perm ws) : s.MayEnd ws := by
  refine ⟨may.1.perm perm, may.2.imp (fun empty => ?_) fun ⟨mask, left⟩ => ⟨mask, fun q inList => left q (perm.mem_iff.2 inList)⟩⟩
  subst empty
  exact perm.nil_eq.symm

theorem State.EndRefused.perm (ends : s.EndRefused t qs) (perm : qs.Perm ws) : s.EndRefused t ws := by
  have members := perm.flatMap_right (·.members)
  have empty : qs = [] ↔ ws = [] := by rw [← List.length_eq_zero_iff, ← List.length_eq_zero_iff, perm.length_eq]
  obtain ⟨refused, others, sequence, labels, refusals, flags, around⟩ := ends
  refine ⟨fun j inList => refused j (members.mem_iff.2 inList), fun j out => others j fun h => out (members.mem_iff.1 h),
    sequence, labels, ?_, ?_, around⟩
  · rw [← members.length_eq]
    exact refusals
  · rw [← if_congr empty rfl rfl]
    exact flags

/-! ### The end of an event: requests move on, LEAVING is settled -/

theorem settled_congr {table : List LotEntry} (station : t.station = s.station) : t.settled table = s.settled table := by
  rw [State.settled, State.settled, station]

theorem settled_moveOnAll (may : y.MayEnd qs) (perm : ws.Perm qs) :
    y.EndRefused (y.moveOnAll ws).settleLeaving qs ∧ (y.moveOnAll ws).settleLeaving.home = y.home ∧
      (y.moveOnAll ws).settleLeaving.table = y.table ∧ (y.moveOnAll ws).settleLeaving.line = y.line ∧
      (y.moveOnAll ws).settleLeaving.station = y.settled y.table := by
  have may' := may.perm perm.symm
  obtain ⟨ends, stay⟩ := endRefused_moveOnAll may'.1 may'.2
  rw [settleLeaving_eq]
  refine ⟨State.EndRefused.perm ends perm, stay.home, stay.table, stay.line, ?_⟩
  show (y.moveOnAll ws).settled (y.moveOnAll ws).table = _
  rw [settled_congr stay.station, stay.table]

theorem settled_moveOn (may : y.MayServe [q]) : y.MovesOn (y.moveOn q).settleLeaving q ∧
    (y.moveOn q).settleLeaving.line = y.line ∧
    (y.moveOn q).settleLeaving.station = y.settled (y.moveOn q).settleLeaving.table := by
  have step := LotStep.moveOn y q
  rw [settleLeaving_eq]
  exact ⟨movesOn_moveOn may rfl, step.line, settled_congr step.station⟩

end

/-! ### The requests of a lot taken off its records -/

section
variable {s : State} {lot i : Nat} {r : HomeRecord} {e e' : LotEntry} {c : Incoming}

theorem updateHome_none (none : s.findHome lot = none) (f : HomeRecord → HomeRecord) : s.updateHome lot f = s := by
  refine congrArg (fun home => { s with home := home }) ((List.map_congr_left fun r inStore => ?_).trans (List.map_id _))
  refine if_neg fun named => ?_
  have other := List.find?_eq_none.1 none r inStore
  simp [named] at other

theorem findIdx?_set_same {α : Type} (p : α → Bool) (x : α) (l : List α) (k : Nat) (hk : k < l.length) (same : p x = p l[k]) :
    (l.set k x).findIdx? p = l.findIdx? p := by
  induction l generalizing k with
  | nil => exact absurd hk (Nat.not_lt_zero k)
  | cons y l ih =>
    cases k with
    | zero =>
      have same : p x = p y := same
      simp only [List.set_cons_zero, List.findIdx?_cons, same]
    | succ k => simp only [List.set_cons_succ, List.findIdx?_cons, ih k (by simpa using hk) same]

theorem incomingOf_putEntry (found : s.table[i]? = some e)
    (same : (e'.incoming.any fun c => c.lot == lot) = e.incoming.any fun c => c.lot == lot) :
    (s.putEntry i e').incomingOf lot = s.incomingOf lot := by
  obtain ⟨inTable, rfl⟩ := List.getElem?_eq_some_iff.1 found
  exact findIdx?_set_same _ e' s.table i inTable same

theorem releaseWaiting_home (one : s.OneHome lot r) (unnamed : s.entryOf lot = none) (noIncoming : s.incomingOf lot = none) :
    s.releaseWaiting lot = (s.putHome lot { r with waiting := [] }, r.waiting.foldr joinWaiting []) := by
  rw [State.releaseWaiting, one.1, unnamed, noIncoming]
  dsimp only
  rw [one.update]
  rfl

theorem releaseWaiting_entry (one : s.OneEntry lot i e) (noIncoming : s.incomingOf lot = none) :
    s.releaseWaiting lot = (s.putEntry i { e with waiting := [] }, e.waiting.foldr joinWaiting []) := by
  obtain ⟨noHome, named, found⟩ := one
  rw [State.releaseWaiting, noHome, named, noIncoming]
  dsimp only
  rw [updateHome_none noHome, updateEntry_at found, entry_at found]
  rfl

theorem releaseWaiting_incoming (noHome : s.findHome lot = none) (unnamed : s.entryOf lot = none)
    (coming : s.incomingOf lot = some i) (found : s.table[i]? = some e) (incoming : e.incoming = some c) :
    s.releaseWaiting lot = (s.putEntry i { e with incoming := some { c with waiting := [] } }, c.waiting) := by
  rw [State.releaseWaiting, noHome, unnamed, coming]
  dsimp only
  rw [updateHome_none noHome, updateEntry_at found, entry_at found, incoming]
  rfl

/-! ### The records ended by a TALLY -/

variable {f : Figures} {d : Departure}

theorem onTally_home (plan : s.planLot lot = some d) (within : f.upTo d.capacity = f) (one : s.OneHome lot r)
    (unnamed : s.entryOf lot = none) (noIncoming : s.incomingOf lot = none) :
    s.onTally lot f = (s.putHome lot { r.tallied f with waiting := [] }).moveOnAll (r.waiting.foldr joinWaiting []) := by
  have released := one.put (r' := { r with waiting := [] }) one.lot_eq
  have ended : ({ r with waiting := [] } : HomeRecord).tallied f = { r.tallied f with waiting := [] } := by
    rw [HomeRecord.tallied, HomeRecord.tallied]
    by_cases already : r.state = .ended
    · rw [if_pos already, if_pos already]
    · rw [if_neg already, if_neg already]
  rw [State.onTally, plan]
  dsimp only
  rw [releaseWaiting_home one unnamed noIncoming, unnamed, within]
  dsimp only
  rw [released.update, putHome_putHome s (r := { r with waiting := [] }) one.lot_eq, ended, State.dropIncoming,
    show (s.putHome lot { r.tallied f with waiting := [] }).incomingOf lot = none from noIncoming]

theorem tallied_waitless (waitless : r.waiting = []) : { r.tallied f with waiting := [] } = r.tallied f := by
  have same : (r.tallied f).waiting = [] := by
    rw [HomeRecord.tallied]
    split <;> exact waitless
  exact congrArg (fun ws => { r.tallied f with waiting := ws }) same.symm

theorem onTally_entry (plan : s.planLot lot = some d) (one : s.OneEntry lot i e) (kept : e.incoming = none)
    (noIncoming : s.incomingOf lot = none) :
    s.onTally lot f = (s.putEntry i { LotEntry.cleared with lastUse := e.lastUse, lastDebit := e.lastDebit }).moveOnAll
      (e.waiting.foldr joinWaiting []) := by
  have now := at_putEntry one.2.2 { e with waiting := [] }
  have freed := at_putEntry one.2.2 { LotEntry.cleared with lastUse := e.lastUse, lastDebit := e.lastDebit }
  have noIncoming' : (s.putEntry i { e with waiting := [] }).incomingOf lot = none :=
    (incomingOf_putEntry (e' := { e with waiting := [] }) one.2.2 rfl).trans noIncoming
  have noHome : (s.putEntry i { e with waiting := [] }).findHome lot = none := one.1
  have same : ({ e with waiting := [] } : LotEntry).freed =
      { LotEntry.cleared with lastUse := e.lastUse, lastDebit := e.lastDebit } := by
    rw [LotEntry.freed, kept]
    rfl
  rw [State.onTally, plan]
  dsimp only
  rw [releaseWaiting_entry one noIncoming, one.2.1]
  dsimp only
  rw [updateHome_none noHome, State.dropIncoming, noIncoming']
  dsimp only
  rw [updateEntry_at now, same, putEntry_putEntry, State.takeUpIncoming, entry_at freed]
  rfl

theorem onTally_incoming (plan : s.planLot lot = some d) (noHome : s.findHome lot = none) (unnamed : s.entryOf lot = none)
    (coming : s.incomingOf lot = some i) (found : s.table[i]? = some e) (incoming : e.incoming = some c) :
    s.onTally lot f = (s.putEntry i { e with incoming := none }).moveOnAll c.waiting := by
  have now := at_putEntry found { e with incoming := some { c with waiting := [] } }
  have noHome' : (s.putEntry i { e with incoming := some { c with waiting := [] } }).findHome lot = none := noHome
  have coming' : (s.putEntry i { e with incoming := some { c with waiting := [] } }).incomingOf lot = some i :=
    (incomingOf_putEntry found (by rw [incoming]; rfl)).trans coming
  rw [State.onTally, plan]
  dsimp only
  rw [releaseWaiting_incoming noHome unnamed coming found incoming, unnamed]
  dsimp only
  rw [updateHome_none noHome', State.dropIncoming, coming']
  dsimp only
  rw [updateEntry_at now, putEntry_putEntry]

end

/-- Settles O59: the record is ended or freed, then its waiting requests move on. -/
theorem tallyEndsTheLot : Obligations.TallyEndsTheLot := by
  intro s sender lot f d plan weight litres pieces ended freed
  have within := upTo_of_le weight litres pieces
  refine ⟨fun hears => ⟨fun r one unnamed noIncoming => ?_, fun i e one kept noIncoming => ?_,
    fun i e c noHome unnamed coming found incoming may => ?_⟩, fun running acts active g q kind age noIncoming =>
    ⟨fun r one unnamed atHome waitless pending sending => ?_, fun i e one holds waitless kept pending sending => ?_⟩⟩
  · have ran := hears_tally hears lot f
    rw [onTally_home (s := s.hearing sender) plan within one unnamed noIncoming] at ran
    refine ⟨fun waitless => ?_, fun may => ?_, fun q only may => ?_⟩
    · rw [ran, waitless, tallied_waitless waitless]
      exact congrArg _ (settleLeaving_eq _)
    · obtain ⟨ends, home, table, line, station⟩ := settled_moveOnAll (y := (s.hearing sender).putHome lot
        { ended r with waiting := [] }) may (perm_foldr_joinWaiting r.waiting)
      exact ⟨_, ran, ends, home, table, line, station⟩
    · rw [only] at ran
      obtain ⟨moves, line, station⟩ := settled_moveOn (y := (s.hearing sender).putHome lot { ended r with waiting := [] }) may
      exact ⟨_, ran, moves, line, station⟩
  · have ran := hears_tally hears lot f
    rw [onTally_entry (s := s.hearing sender) plan one kept noIncoming] at ran
    refine ⟨fun waitless => ?_, fun may => ?_, fun q only may => ?_⟩
    · rw [ran, waitless]
      exact congrArg _ (settleLeaving_eq _)
    · obtain ⟨ends, home, table, line, station⟩ := settled_moveOnAll (y := (s.hearing sender).putEntry i (freed e)) may
        (perm_foldr_joinWaiting e.waiting)
      exact ⟨_, ran, ends, table, home, line, station.trans (congrArg s.settled table.symm)⟩
    · rw [only] at ran
      obtain ⟨moves, line, station⟩ := settled_moveOn (y := (s.hearing sender).putEntry i (freed e)) may
      exact ⟨_, ran, moves, line, station⟩
  · have ran := hears_tally hears lot f
    rw [onTally_incoming (s := s.hearing sender) plan noHome unnamed coming found incoming] at ran
    obtain ⟨ends, home, table, line, station⟩ := settled_moveOnAll (y := (s.hearing sender).putEntry i
      { e with incoming := none }) may (.refl _)
    exact ⟨_, ran, ends, table, home, line, station.trans (congrArg s.settled table.symm)⟩
  · have sends := State.Sends.of_pending (body := .tally lot f) running acts active sending
      (one.pendingFrame.trans pending) kind age
    have ran := sends_tally sends
    have now : State.OneHome (({ s with line := s.line.delivered s.own } : State).putHome lot { r with frame := none }) lot
        { r with frame := none } := State.OneHome.put (s := { s with line := s.line.delivered s.own }) one one.lot_eq
    rw [delivering_home one, onTally_home (s := ({ s with line := s.line.delivered s.own } : State).putHome lot
      { r with frame := none }) plan within now unnamed noIncoming, putHome_putHome _ (r := { r with frame := none })
      one.lot_eq] at ran
    have unended : r.state ≠ .ended := by rw [atHome]; nofun
    have same : ({ r with frame := none } : HomeRecord).tallied f = ended r := by
      rw [HomeRecord.tallied, if_neg unended, show ended r = _ from if_neg unended]
    rw [tallied_waitless (r := { r with frame := none }) waitless, same] at ran
    dsimp only at ran
    rw [waitless] at ran
    rw [ran]
    exact congrArg _ (settleLeaving_eq _)
  · have sends := State.Sends.of_pending (body := .tally lot f) running acts active sending
      ((pendingFrame_at one.2.2).trans pending) kind age
    have ran := sends_tally sends
    have now : State.OneEntry (({ s with line := s.line.delivered s.own } : State).putEntry i { e with frame := none }) lot i
        { e with frame := none } := State.OneEntry.put (s := { s with line := s.line.delivered s.own }) one one.lot_eq
    have noIncoming' : (({ s with line := s.line.delivered s.own } : State).putEntry i { e with frame := none }).incomingOf lot =
        none := (incomingOf_putEntry (s := { s with line := s.line.delivered s.own }) (e' := { e with frame := none })
      one.2.2 rfl).trans noIncoming
    rw [delivering_entry one.2.2, onTally_entry (s := ({ s with line := s.line.delivered s.own } : State).putEntry i
      { e with frame := none }) plan now kept noIncoming', putEntry_putEntry] at ran
    dsimp only at ran
    rw [waitless] at ran
    rw [ran]
    exact congrArg _ (settleLeaving_eq _)

end Sys2Proof.Machine

end

section
/-! What the tries of a request leave of the other records: one entry at most is touched by each try, and no home record
but that of the lot tried (R106, R107, R115, R116). -/

namespace Sys2Proof.Machine

/-! ### Entries -/

/-- An entry that neither holds its lot nor keeps an incoming one. -/
def LotEntry.bare (e : LotEntry) : Prop := e.holds = false ∧ e.incoming = none

/-- Of the lot table, entry `k` alone has changed, and is bare when it was. -/
structure TouchesAlone (s t : State) (k : Nat) : Prop where
  others : ∀ i, i ≠ k → t.table[i]? = s.table[i]?
  stays : ∀ e', t.table[k]? = some e' → ∃ e, s.table[k]? = some e ∧ (e.bare → e'.bare)

namespace TouchesAlone

variable {s t u : State} {k : Nat}

theorem of_table (same : t.table = s.table) (k : Nat) : TouchesAlone s t k :=
  ⟨fun i _ => by rw [same], fun e' at' => ⟨e', by rw [← same]; exact at', id⟩⟩

theorem refl (s : State) (k : Nat) : TouchesAlone s s k := of_table rfl k

theorem trans (h : TouchesAlone s t k) (j : TouchesAlone t u k) : TouchesAlone s u k := by
  refine ⟨fun i other => (j.others i other).trans (h.others i other), fun e'' at'' => ?_⟩
  obtain ⟨e', at', bare'⟩ := j.stays e'' at''
  obtain ⟨e, at0, bare⟩ := h.stays e' at'
  exact ⟨e, at0, fun b => bare' (bare b)⟩

theorem of_modify {f : LotEntry → LotEntry} (same : t.table = s.table.modify k f)
    (keeps : ∀ e, s.table[k]? = some e → e.bare → (f e).bare) : TouchesAlone s t k := by
  refine ⟨fun i other => ?_, fun e' found => ?_⟩
  · rw [same, List.getElem?_modify_ne _ _ (Ne.symm other)]
  · rw [same, List.getElem?_modify_eq] at found
    obtain ⟨e, found', rfl⟩ := Option.map_eq_some_iff.1 found
    exact ⟨e, found', keeps e found'⟩

theorem updateEntry (s : State) (k : Nat) {f : LotEntry → LotEntry}
    (keeps : ∀ e, s.table[k]? = some e → e.bare → (f e).bare) : TouchesAlone s (s.updateEntry k f) k :=
  of_modify rfl keeps

theorem useEntry (s : State) (k : Nat) : TouchesAlone s (s.useEntry k) k := of_modify rfl fun _ _ b => b

theorem queue (s : State) (k : Nat) (kind : FrameKind) (n : Nat) : TouchesAlone s (s.queue (.entry k) kind n) k :=
  of_modify rfl fun _ _ b => b

theorem join (s : State) (k lot : Nat) (q : Request) : TouchesAlone s (s.join (.entry k) lot q) k :=
  updateEntry s k fun _ _ b => b

theorem askEntry (s : State) (k : Nat) : TouchesAlone s (s.askEntry k) k :=
  have asking : TouchesAlone s (s.updateEntry k fun e => { e with state := .asking, attempts := 0, fetchTimer := none }) k :=
    updateEntry s k fun _ _ b => ⟨rfl, b.2⟩
  asking.trans (queue _ k .fetch 0)

theorem makeEntry (s : State) (k lot : Nat) (ws : List Request) : TouchesAlone s (s.makeEntry k lot .asking ws) k :=
  of_modify rfl fun _ _ _ => ⟨rfl, rfl⟩

theorem labelRequest (s : State) (q : Request) (d : DispatchFields) (k : Nat) : TouchesAlone s (s.labelRequest q d) k :=
  of_table (labelRequest_home s q d).2 k

theorem refuseNoNumber (s : State) (q : Request) (k : Nat) : TouchesAlone s (s.refuseNoNumber q) k :=
  of_table (refuseNoNumber_home s q).2 k

/-- Only an entry that holds its lot is debited. -/
theorem debit {q : Request} (debited : s.debit (.entry k) q = some t) : TouchesAlone s t k := by
  rw [State.debit] at debited
  cases owned : s.owned (.entry k) with
  | none => rw [owned] at debited; cases debited
  | some o =>
    obtain ⟨lot, figures, mark⟩ := o
    rw [owned] at debited
    have holds (e : LotEntry) (found : s.table[k]? = some e) : e.holds = true := by
      rw [State.owned, entry_at found] at owned
      by_contra free
      cases named : e.lot <;> simp [named, free] at owned
    have taken : TouchesAlone s (s.takeFigures (.entry k) q.figures) k :=
      of_modify rfl fun e found b => absurd (holds e found) (by rw [b.1]; exact Bool.false_ne_true)
    dsimp only at debited
    split at debited
    · cases debited
    · split at debited
      · obtain rfl := Option.some.inj debited
        exact taken.trans (labelRequest _ _ _ k)
      · obtain rfl := Option.some.inj debited
        exact refuseNoNumber _ _ k

theorem tryDebit (s : State) (k : Nat) (q : Request) : TouchesAlone s (LotStep.endOf (s.tryDebit (.entry k) q)) k := by
  rw [State.tryDebit]
  split
  case h_1 t debited => exact debit debited
  case h_2 => exact refl s k

theorem tryEntry (s : State) (q : Request) (lot k : Nat) : TouchesAlone s (LotStep.endOf (s.tryEntry q lot k)) k := by
  have asks := (askEntry s k).trans (join (s.askEntry k) k lot q)
  rw [State.tryEntry]
  split
  · split
    · exact refl s k
    · exact asks
  · split
    · exact refl s k
    · exact asks
  · exact join s k lot q
  all_goals
    split
    · exact refl s k
    · split
      · exact tryDebit s k q
      · exact join s k lot q

/-- The entry cast out holds its lot. -/
theorem castOut {s : State} {k : Nat} {e : LotEntry} (found : s.table[k]? = some e) (holds : e.holds = true) (lot : Nat)
    (q : Request) : TouchesAlone s (s.castOut k lot q) k := by
  have queued := (queue s k .handover (match (s.entry k).lot with | some l => s.homeOf l | none => 0)).others
  refine ⟨fun i other => ?_, fun e' at' => ⟨e, found, fun b => absurd holds (by rw [b.1]; exact Bool.false_ne_true)⟩⟩
  show (List.modify _ _ _)[i]? = _
  rw [List.getElem?_modify_ne _ _ (Ne.symm other)]
  exact queued i other

end TouchesAlone

theorem leastEntry_some {qualifies : LotEntry → Bool} {key : LotEntry → Nat} {l : List LotEntry} {k : Nat}
    (chosen : (leastEntry qualifies key 0 l).map (·.1) = some k) : ∃ e, l[k]? = some e ∧ qualifies e = true := by
  obtain ⟨none, -⟩ | ⟨n, e, some', found, good, -⟩ := leastEntry_spec qualifies key l 0
  · rw [none] at chosen
    cases chosen
  · rw [some'] at chosen
    obtain rfl := Option.some.inj chosen
    rw [Nat.zero_add]
    exact ⟨e, found, good⟩

/-- An entry that a try of a lot may change: it names the lot, keeps an incoming lot, holds none, or may be cast out. -/
def State.triedAt (s : State) (lot : Nat) (e : LotEntry) : Prop :=
  e.lot = some lot ∨ e.incoming ≠ none ∨ e.holds = false ∨ s.MayCastOut e

/-- A try of a foreign lot touches one such entry, or none. -/
theorem tryForeign_touches (s : State) (q : Request) (lot : Nat) :
    (LotStep.endOf (s.tryForeign q lot)).table = s.table ∨ ∃ k e, s.table[k]? = some e ∧ s.triedAt lot e ∧
      TouchesAlone s (LotStep.endOf (s.tryForeign q lot)) k := by
  rw [State.tryForeign]
  split
  case h_1 k named =>
    obtain ⟨inTable, lots⟩ := entryOf_some named
    refine .inr ⟨k, s.entry k, ?_, .inl lots, (TouchesAlone.useEntry s k).trans (.tryEntry _ q lot k)⟩
    rw [entry_eq_getElem s k inTable, List.getElem?_eq_getElem inTable]
  case h_2 =>
    split
    case h_1 k coming =>
      obtain ⟨inTable, c, incoming, -⟩ := incomingOf_some coming
      refine .inr ⟨k, s.entry k, ?_, .inr (.inl ?_), (TouchesAlone.useEntry s k).trans (.updateEntry _ k fun e _ b => ⟨b.1, ?_⟩)⟩
      · rw [entry_eq_getElem s k inTable, List.getElem?_eq_getElem inTable]
      · rw [incoming]; nofun
      · show e.incoming.map _ = none
        rw [b.2]
        rfl
    case h_2 =>
      rw [State.tryNewEntry]
      split
      case h_1 k chosen =>
        obtain ⟨e, found, good⟩ := leastEntry_some chosen
        obtain ⟨state, -⟩ := (replaceable_iff s e).1 good
        have free : e.holds = false := by
          rw [LotEntry.holds]
          obtain state | state := state <;> rw [state] <;> rfl
        exact .inr ⟨k, e, found, .inr (.inr (.inl free)), (TouchesAlone.makeEntry s k lot _).trans (.queue _ k .fetch 0)⟩
      case h_2 =>
        split
        case h_1 k chosen =>
          obtain ⟨e, found, good⟩ := leastEntry_some chosen
          have may := (castable_iff s e).1 good
          exact .inr ⟨k, e, found, .inr (.inr (.inr may)), TouchesAlone.castOut found ((holds_iff e).2 may.1) lot q⟩
        case h_2 => exact .inl rfl

theorem tryHome_table (s : State) (q : Request) (lot : Nat) : (LotStep.endOf (s.tryHome q lot)).table = s.table := by
  have debited (t : State) (h : s.debit (.home lot) q = some t) : t.table = s.table := by
    rw [State.debit] at h
    split at h
    · cases h
    · split at h
      · cases h
      · split at h
        · obtain rfl := Option.some.inj h
          exact (labelRequest_home _ _ _).2
        · obtain rfl := Option.some.inj h
          exact (refuseNoNumber_home _ _).2
  rw [State.tryHome]
  split
  · rfl
  · split
    · split
      · rw [State.tryDebit]
        split
        case h_1 t h => exact debited t h
        case h_2 => rfl
      · rfl
    · split <;> rfl
    · rfl
    · rfl
    · rfl

/-- A try of one candidate touches one entry at most, and none when the lot is homed here. -/
theorem tryCandidate_touches (s : State) (q : Request) (c : Candidate) :
    (LotStep.endOf (s.tryCandidate q c)).table = s.table ∨ (s.homeOf c.lot ≠ s.own ∧ ∃ k e, s.table[k]? = some e ∧
      s.triedAt c.lot e ∧ TouchesAlone s (LotStep.endOf (s.tryCandidate q c)) k) := by
  rw [State.tryCandidate]
  split
  · exact .inl rfl
  · split
    case isTrue => exact .inl (tryHome_table s q c.lot)
    case isFalse foreign => exact (tryForeign_touches s q c.lot).imp_right fun touched => ⟨foreign, touched⟩

theorem settleNoDispatch_home (s : State) (q : Request) :
    (s.settleNoDispatch q).home = s.home ∧ (s.settleNoDispatch q).table = s.table := by
  rw [State.settleNoDispatch]
  split
  · split
    · exact labelRequest_home _ _ _
    · exact refuseNoNumber_home _ _
  · obtain ⟨-, -, -, -, -, -, -, -, -, home, table, -⟩ :=
      (slotStep_refuseSeeking (s.raise .noDispatch) q.members (some (DispatchFields.routeOnly q.route false)) .noDispatch).outside
    exact ⟨home, table⟩

/-- An invariant of states that every try and the end without a lot keep holds after all tries. -/
theorem tryAll_induction {P : State → Prop} {cs : List Candidate}
    (tries : ∀ s q, ∀ c ∈ cs, P s → P (LotStep.endOf (s.tryCandidate q c))) (ends : ∀ s q, P s → P (s.settleNoDispatch q))
    (s : State) (q : Request) (start : P s) : P (s.tryAll q cs) := by
  induction cs generalizing s q with
  | nil => exact ends s q start
  | cons c cs ih =>
    have one := tries s q c List.mem_cons_self start
    have rest := ih fun s q c inList => tries s q c (List.mem_cons_of_mem _ inList)
    rw [State.tryAll]
    cases tried : s.tryCandidate q c with
    | settled t => rw [tried] at one; exact one
    | movesOn t => rw [tried] at one; exact rest t _ one
    | noEntry t => rw [tried] at one; exact ends t q one

/-- A bare entry stays bare. -/
theorem bare_moveOn {s : State} {i : Nat} (bare : ∀ e, s.table[i]? = some e → e.bare) (q : Request) :
    ∀ e, (s.moveOn q).table[i]? = some e → e.bare := by
  refine tryAll_induction (P := fun s => ∀ e, s.table[i]? = some e → e.bare) (fun s q c _ bare => ?_)
    (fun s q bare => by rw [(settleNoDispatch_home s q).2]; exact bare) s _ bare
  obtain same | ⟨-, k, -, -, -, touches⟩ := tryCandidate_touches s q c
  · rw [same]
    exact bare
  · intro e' found'
    by_cases here : i = k
    · subst here
      obtain ⟨e, found, keeps⟩ := touches.stays e' found'
      exact keeps (bare e found)
    · rw [touches.others i here] at found'
      exact bare e' found'

/-- An entry that holds its lot stays as it is when its lot is not tried and it may not be cast out. -/
theorem held_moveOn {s : State} {i : Nat} {e : LotEntry} {q : Request} (found : s.table[i]? = some e) (holds : e.holds = true)
    (noIncoming : e.incoming = none)
    (apart : ∀ c ∈ q.candidates.drop (q.next + 1), e.lot ≠ some c.lot ∧ (e.queue ≠ [] ∨ s.homeOf c.lot = s.own)) :
    (s.moveOn q).table[i]? = some e := by
  refine (tryAll_induction (P := fun t => t.table[i]? = some e ∧ t.store = s.store ∧ t.configuration = s.configuration)
    (fun t q' c inList ⟨found, store, configuration⟩ => ?_)
    (fun t q' ⟨found, store, configuration⟩ => ?_) s _ ⟨found, rfl, rfl⟩).1
  · have step := LotStep.tryCandidate t q' c
    refine ⟨?_, step.store.trans store, step.configuration.trans configuration⟩
    obtain same | ⟨foreign, k, x, at', tried, touches⟩ := tryCandidate_touches t q' c
    · rw [same]
      exact found
    · by_cases here : i = k
      · subst here
        obtain rfl := Option.some.inj (found.symm.trans at')
        obtain ⟨notLot, kept⟩ := apart c inList
        obtain lot | incoming | free | ⟨-, queue, -⟩ := tried
        · exact absurd lot notLot
        · exact absurd noIncoming incoming
        · rw [holds] at free
          cases free
        · rw [homeOf_congr store, own_congr configuration] at foreign
          exact absurd (kept.resolve_left fun h => h queue) foreign
      · rw [touches.others i here]
        exact found
  · have step := LotStep.settleNoDispatch t q'
    exact ⟨by rw [(settleNoDispatch_home t q').2]; exact found, step.store.trans store, step.configuration.trans configuration⟩

/-! ### Home records -/

/-- Of the home store, the records of one lot alone have changed. -/
def HomesApart (lot : Nat) (s t : State) : Prop := ∀ l r, l ≠ lot → s.OneHome l r → t.OneHome l r

namespace HomesApart

variable {s t u : State} {lot : Nat}

theorem of_home (same : t.home = s.home) : HomesApart lot s t := fun l r _ ⟨found, unique⟩ =>
  ⟨by rw [State.findHome, same]; exact found, by rw [same]; exact unique⟩

theorem refl (s : State) (lot : Nat) : HomesApart lot s s := of_home rfl

theorem trans (h : HomesApart lot s t) (k : HomesApart lot t u) : HomesApart lot s u :=
  fun l r other one => k l r other (h l r other one)

theorem updateHome (s : State) (lot : Nat) {f : HomeRecord → HomeRecord} (keeps : ∀ r, (f r).lot = r.lot) :
    HomesApart lot s (s.updateHome lot f) := by
  intro l r other ⟨found, unique⟩
  refine ⟨?_, fun x inStore named => ?_⟩
  · rw [findHome_updateHome s lot l keeps, if_neg other]
    exact found
  · obtain ⟨y, inStore', rfl⟩ := List.mem_map.1 inStore
    by_cases here : y.lot = lot
    · rw [if_pos here, keeps] at named
      exact absurd (named.symm.trans here) other
    · rw [if_neg here] at named ⊢
      exact unique y inStore' named

theorem queue (s : State) (lot : Nat) (kind : FrameKind) (n : Nat) : HomesApart lot s (s.queue (.home lot) kind n) :=
  updateHome s lot fun _ => rfl

theorem join (s : State) (lot : Nat) (q : Request) : HomesApart lot s (s.join (.home lot) lot q) :=
  updateHome s lot fun _ => rfl

theorem askHome (s : State) (lot : Nat) : HomesApart lot s (s.askHome lot) :=
  have asking : HomesApart lot s (s.updateHome lot fun r => { r with state := .askingHome, attempts := 0 }) :=
    updateHome s lot fun _ => rfl
  asking.trans (queue _ lot .fetch 0)

theorem tryHome (s : State) (q : Request) (lot : Nat) : HomesApart lot s (LotStep.endOf (s.tryHome q lot)) := by
  have debited (t : State) (h : s.debit (.home lot) q = some t) : HomesApart lot s t := by
    rw [State.debit] at h
    split at h
    · cases h
    · split at h
      · cases h
      · have taken : HomesApart lot s (s.takeFigures (.home lot) q.figures) := updateHome s lot fun _ => rfl
        split at h
        · obtain rfl := Option.some.inj h
          exact taken.trans (of_home (labelRequest_home _ _ _).1)
        · obtain rfl := Option.some.inj h
          exact of_home (refuseNoNumber_home _ _).1
  have asks := (askHome s lot).trans (join (s.askHome lot) lot q)
  rw [State.tryHome]
  split
  · exact refl s lot
  · split
    · split
      · rw [State.tryDebit]
        split
        case h_1 t h => exact debited t h
        case h_2 => exact refl s lot
      · exact join s lot q
    · split
      · exact asks
      · exact refl s lot
    · exact asks
    · exact join s lot q
    · exact refl s lot

end HomesApart

theorem tryForeign_home (s : State) (q : Request) (lot : Nat) : (LotStep.endOf (s.tryForeign q lot)).home = s.home := by
  have debited (t : State) (k : Nat) (h : (s.useEntry k).debit (.entry k) q = some t) : t.home = s.home := by
    rw [State.debit] at h
    split at h
    · cases h
    · split at h
      · cases h
      · split at h
        · obtain rfl := Option.some.inj h
          exact (labelRequest_home _ _ _).1
        · obtain rfl := Option.some.inj h
          exact (refuseNoNumber_home _ _).1
  have tried (k : Nat) : (LotStep.endOf ((s.useEntry k).tryDebit (.entry k) q)).home = s.home := by
    rw [State.tryDebit]
    split
    case h_1 t h => exact debited t k h
    case h_2 => rfl
  rw [State.tryForeign]
  split
  case h_1 k _ =>
    rw [State.tryEntry]
    split
    · split <;> rfl
    · split <;> rfl
    · rfl
    all_goals
      split
      · rfl
      · split
        · exact tried k
        · rfl
  case h_2 =>
    split
    · rfl
    · rw [State.tryNewEntry]
      split
      · rfl
      · split <;> rfl

theorem homesApart_tryCandidate (s : State) (q : Request) (c : Candidate) :
    HomesApart c.lot s (LotStep.endOf (s.tryCandidate q c)) := by
  rw [State.tryCandidate]
  split
  · exact .refl s c.lot
  · split
    · exact .tryHome s q c.lot
    · exact .of_home (tryForeign_home s q c.lot)

/-- The home record of a lot that is not tried stays as it is. -/
theorem oneHome_moveOn {s : State} {lot : Nat} {r : HomeRecord} {q : Request} (one : s.OneHome lot r)
    (apart : ∀ c ∈ q.candidates.drop (q.next + 1), c.lot ≠ lot) : (s.moveOn q).OneHome lot r :=
  tryAll_induction (P := fun s => s.OneHome lot r)
    (fun s q c inList one => homesApart_tryCandidate s q c lot r (Ne.symm (apart c inList)) one)
    (fun s q one => HomesApart.of_home (lot := lot + 1) (settleNoDispatch_home s q).1 lot r (Nat.ne_of_lt (Nat.lt_succ_self lot))
      one) s _ one

end Sys2Proof.Machine

end

section
/-! A record that gives its lot up: what waits asks again or moves on, an incoming lot is taken up (R117, R126, R135). -/

namespace Sys2Proof.Machine

/-- The requests that fit the figures with which a lot is given up, and those that do not (R126). -/
def stayFor (f : Figures) (ws : List Request) : List Request := ws.filter fun q => q.figures.fits f
def leaveFor (f : Figures) (ws : List Request) : List Request := ws.filter fun q => !q.figures.fits f

theorem fits_eq_decide (q f : Figures) :
    q.fits f = decide (q.weight ≤ f.weight ∧ q.litres ≤ f.litres ∧ q.pieces ≤ f.pieces) := by
  rw [Figures.fits, Bool.decide_and, Bool.decide_and, Bool.and_assoc]

theorem stayFor_eq (f : Figures) (ws : List Request) : stayFor f ws = ws.filter fun x =>
    decide (x.figures.weight ≤ f.weight ∧ x.figures.litres ≤ f.litres ∧ x.figures.pieces ≤ f.pieces) :=
  congrArg (List.filter · ws) (funext fun _ => fits_eq_decide _ _)

theorem leaveFor_eq (f : Figures) (ws : List Request) : leaveFor f ws = ws.filter fun x =>
    !decide (x.figures.weight ≤ f.weight ∧ x.figures.litres ≤ f.litres ∧ x.figures.pieces ≤ f.pieces) :=
  congrArg (List.filter · ws) (funext fun _ => congrArg (!·) (fits_eq_decide _ _))

theorem stayFor_unfit {f : Figures} {q : Request} (unfit : ¬ FitsIn q.figures f) : stayFor f [q] = [] := by
  rw [stayFor, List.filter_cons_of_neg (by rw [fits_iff]; exact unfit), List.filter_nil]

theorem leaveFor_unfit {f : Figures} {q : Request} (unfit : ¬ FitsIn q.figures f) : leaveFor f [q] = [q] := by
  rw [leaveFor, List.filter_cons_of_pos (by rw [(fits_eq_false_iff _ _).2 unfit]; rfl), List.filter_nil]

section
variable {s : State} {lot i : Nat} {r : HomeRecord} {e : LotEntry} {f : Figures} {q : Request}

/-- The record as it asks again for the requests that stay. -/
def HomeRecord.askingFor (r : HomeRecord) (f : Figures) (ordinal : Nat) : HomeRecord :=
  if stayFor f r.waiting = [] then { r with waiting := [] }
  else { r with
    state := .askingHome, attempts := 0, frame := some ⟨.fetch, 0, ordinal⟩, waiting := stayFor f r.waiting }

def LotEntry.askingFor (e : LotEntry) (f : Figures) (ordinal : Nat) : LotEntry :=
  if stayFor f e.waiting = [] then { e with waiting := [] }
  else { e with
    state := .asking, attempts := 0, fetchTimer := none, frame := some ⟨.fetch, 0, ordinal⟩
    waiting := stayFor f e.waiting }

theorem askAgain_home (one : s.OneHome lot r) (noFrame : r.frame = none) (f : Figures) :
    s.askAgain (.home lot) f = ({ s.putHome lot (r.askingFor f s.ordinal) with
      ordinal := if stayFor f r.waiting = [] then s.ordinal else s.ordinal + 1 } : State).moveOnAll
      (leaveFor f r.waiting) := by
  have staying := one.put (r' := { r with waiting := stayFor f r.waiting }) one.lot_eq
  have kept : s.setWaiting (.home lot) (stayFor f r.waiting) = s.putHome lot { r with waiting := stayFor f r.waiting } :=
    one.update fun r' => { r' with waiting := stayFor f r.waiting }
  have again : s.askAgain (.home lot) f = (if (stayFor f r.waiting).isEmpty then s.setWaiting (.home lot) (stayFor f r.waiting)
      else (s.setWaiting (.home lot) (stayFor f r.waiting)).askHome lot).moveOnAll (leaveFor f r.waiting) := by
    rw [State.askAgain, one.waitingAt]
    rfl
  rw [again, kept, HomeRecord.askingFor]
  by_cases none : stayFor f r.waiting = []
  · rw [if_pos (List.isEmpty_iff.2 none), if_pos none, if_pos none, none]
    rfl
  · rw [if_neg (mt List.isEmpty_iff.1 none), if_neg none, if_neg none, askHome_eq staying,
      putHome_putHome s (r := { r with waiting := stayFor f r.waiting }) one.lot_eq,
      HomeRecord.queued_fresh (r := { r with waiting := stayFor f r.waiting, state := .askingHome, attempts := 0 }) noFrame rfl]
    rfl

theorem askAgain_entry (found : s.table[i]? = some e) (noFrame : e.frame = none) (f : Figures) :
    s.askAgain (.entry i) f = ({ s.putEntry i (e.askingFor f s.ordinal) with
      ordinal := if stayFor f e.waiting = [] then s.ordinal else s.ordinal + 1 } : State).moveOnAll
      (leaveFor f e.waiting) := by
  have staying := at_putEntry found { e with waiting := stayFor f e.waiting }
  have kept : s.setWaiting (.entry i) (stayFor f e.waiting) = s.putEntry i { e with waiting := stayFor f e.waiting } :=
    updateEntry_at found fun e' => { e' with waiting := stayFor f e.waiting }
  have again : s.askAgain (.entry i) f = (if (stayFor f e.waiting).isEmpty then s.setWaiting (.entry i) (stayFor f e.waiting)
      else (s.setWaiting (.entry i) (stayFor f e.waiting)).askEntry i).moveOnAll (leaveFor f e.waiting) := by
    rw [State.askAgain, waitingAt_at found]
    rfl
  rw [again, kept, LotEntry.askingFor]
  by_cases none : stayFor f e.waiting = []
  · rw [if_pos (List.isEmpty_iff.2 none), if_pos none, if_pos none, none]
    rfl
  · rw [if_neg (mt List.isEmpty_iff.1 none), if_neg none, if_neg none, askEntry_eq staying, putEntry_putEntry,
      LotEntry.queued_fresh (e := { e with waiting := stayFor f e.waiting, state := .asking, attempts := 0, fetchTimer := Option.none })
        noFrame rfl rfl]
    rfl

theorem askAgain_nothing {ref : RecordRef} (waitless : s.waitingAt ref = []) (f : Figures) :
    s.askAgain ref f = s.setWaiting ref [] := by
  rw [State.askAgain.eq_def, waitless]
  rfl

theorem takeUpIncoming_none (found : s.table[i]? = some e) (noIncoming : e.incoming = none) : s.takeUpIncoming i = s := by
  rw [State.takeUpIncoming, entry_at found, noIncoming]

/-- The incoming lot of an entry that no longer holds its own (R117). -/
theorem takeUpIncoming_some {c : Incoming} (found : s.table[i]? = some e) (incoming : e.incoming = some c) :
    s.takeUpIncoming i = if c.waiting = [] then s.putEntry i { e with incoming := none }
      else { s.putEntry i { LotEntry.cleared with
          lot := some c.lot, state := .asking, lastUse := s.ordinal, lastDebit := e.lastDebit, waiting := c.waiting
          frame := some ⟨.fetch, 0, s.ordinal + 1⟩ } with ordinal := s.ordinal + 2 } := by
  have made : s.makeEntry i c.lot .asking c.waiting = (s.putEntry i { LotEntry.cleared with
      lot := some c.lot, state := .asking, lastUse := s.ordinal, lastDebit := e.lastDebit
      waiting := c.waiting }).nextOrdinal := congrArg State.nextOrdinal (updateEntry_at found _)
  have now : (s.putEntry i { LotEntry.cleared with
      lot := some c.lot, state := .asking, lastUse := s.ordinal, lastDebit := e.lastDebit
      waiting := c.waiting }).nextOrdinal.table[i]? = some _ := at_putEntry found _
  rw [State.takeUpIncoming, entry_at found, incoming]
  dsimp only
  refine if_congr List.isEmpty_iff (updateEntry_at found _) ?_
  rw [made, queue_at now, LotEntry.queued_fresh (e := { LotEntry.cleared with
      lot := some c.lot, state := .asking, lastUse := s.ordinal, lastDebit := e.lastDebit
      waiting := c.waiting }) rfl rfl rfl]
  exact congrArg (fun x : State => { x with ordinal := s.ordinal + 2 }) (putEntry_putEntry s i { LotEntry.cleared with
      lot := some c.lot, state := .asking, lastUse := s.ordinal, lastDebit := e.lastDebit
      waiting := c.waiting } _)

/-- An entry that has given its lot up, in the state `s`: its requests ask again or move on, then its incoming lot. -/
theorem gaveUp_entry (found : s.table[i]? = some e) (noFrame : e.frame = none) (free : e.holds = false) (f : Figures) :
    (e.waiting = [] → (s.askAgain (.entry i) f).takeUpIncoming i = s.takeUpIncoming i) ∧
    (e.incoming = none → s.MayEnd (leaveFor f e.waiting) →
      let u := ((s.askAgain (.entry i) f).takeUpIncoming i).settleLeaving
      s.EndRefused u (leaveFor f e.waiting) ∧ u.table = s.table.set i (e.askingFor f s.ordinal) ∧ u.home = s.home ∧
        u.line = s.line ∧ u.station = s.settled u.table) ∧
    (∀ q, e.incoming = none → e.waiting = [q] → ¬ FitsIn q.figures f → s.MayServe [q] →
      let u := ((s.askAgain (.entry i) f).takeUpIncoming i).settleLeaving
      State.MovesOn (s.putEntry i { e with waiting := [] }) u q ∧ u.line = s.line ∧ u.station = s.settled u.table) := by
  refine ⟨fun waitless => ?_, fun noIncoming may => ?_, fun q noIncoming only unfit may => ?_⟩
  · have same : s.setWaiting (.entry i) [] = s := by
      have kept : s.setWaiting (.entry i) [] = s.putEntry i { e with waiting := [] } := updateEntry_at found _
      rw [kept, ← waitless]
      exact putEntry_self found
    rw [askAgain_nothing ((waitingAt_at found).trans waitless), same]
  · have asked := askAgain_entry found noFrame f
    have kept : (e.askingFor f s.ordinal).incoming = none := by
      rw [LotEntry.askingFor]
      split <;> exact noIncoming
    generalize (if stayFor f e.waiting = [] then s.ordinal else s.ordinal + 1) = o at asked
    have may' : ({ s.putEntry i (e.askingFor f s.ordinal) with ordinal := o } : State).MayEnd (leaveFor f e.waiting) := may
    have stay := (endRefused_moveOnAll may'.1 may'.2).2
    have still : (({ s.putEntry i (e.askingFor f s.ordinal) with ordinal := o } : State).moveOnAll
        (leaveFor f e.waiting)).table[i]? = some (e.askingFor f s.ordinal) := by
      rw [stay.table]
      exact at_putEntry found _
    obtain ⟨ends, home, table, line, station⟩ := settled_moveOnAll may' (.refl _)
    rw [asked, takeUpIncoming_none still kept]
    exact ⟨ends, table, home, line, station.trans (congrArg s.settled table.symm)⟩
  · have asked := askAgain_entry found noFrame f
    rw [LotEntry.askingFor, only, stayFor_unfit unfit, leaveFor_unfit unfit, if_pos rfl, if_pos rfl] at asked
    have asked : s.askAgain (.entry i) f = (s.putEntry i { e with waiting := [] }).moveOn q := asked
    have bare : ∀ x, (s.putEntry i { e with waiting := [] }).table[i]? = some x → x.bare := fun x at' => by
      rw [at_putEntry found] at at'
      obtain rfl := Option.some.inj at'
      exact ⟨free, noIncoming⟩
    have after : ((s.putEntry i { e with waiting := [] }).moveOn q).takeUpIncoming i =
        (s.putEntry i { e with waiting := [] }).moveOn q := by
      have inTable : i < ((s.putEntry i { e with waiting := [] }).moveOn q).table.length := by
        rw [(LotStep.moveOn _ q).tableLength]
        exact (List.getElem?_eq_some_iff.1 (at_putEntry found { e with waiting := [] })).1
      have at' := List.getElem?_eq_getElem inTable
      exact takeUpIncoming_none at' (bare_moveOn bare q _ at').2
    obtain ⟨moves, line, station⟩ := settled_moveOn (y := s.putEntry i { e with waiting := [] }) may
    rw [asked, after]
    exact ⟨moves, line, station⟩

/-- A home record that has given its lot up, in the state `s`: its requests ask again or move on. -/
theorem gaveUp_home (one : s.OneHome lot r) (noFrame : r.frame = none) (f : Figures) :
    (r.waiting = [] → s.askAgain (.home lot) f = s) ∧
    (s.MayEnd (leaveFor f r.waiting) →
      let u := (s.askAgain (.home lot) f).settleLeaving
      s.EndRefused u (leaveFor f r.waiting) ∧
        u.home = s.home.map (fun x => if x.lot = lot then r.askingFor f s.ordinal else x) ∧ u.table = s.table ∧
        u.line = s.line ∧ u.station = s.settled s.table) ∧
    (∀ q, r.waiting = [q] → ¬ FitsIn q.figures f → s.MayServe [q] →
      let u := (s.askAgain (.home lot) f).settleLeaving
      State.MovesOn (s.putHome lot { r with waiting := [] }) u q ∧ u.line = s.line ∧ u.station = s.settled u.table) := by
  refine ⟨fun waitless => ?_, fun may => ?_, fun q only unfit may => ?_⟩
  · have kept : s.setWaiting (.home lot) [] = s.putHome lot { r with waiting := [] } := one.update _
    rw [askAgain_nothing (one.waitingAt.trans waitless), kept, ← waitless]
    exact putHome_self one
  · have asked := askAgain_home one noFrame f
    generalize (if stayFor f r.waiting = [] then s.ordinal else s.ordinal + 1) = o at asked
    have may' : ({ s.putHome lot (r.askingFor f s.ordinal) with ordinal := o } : State).MayEnd (leaveFor f r.waiting) := may
    obtain ⟨ends, home, table, line, station⟩ := settled_moveOnAll may' (.refl _)
    rw [asked]
    exact ⟨ends, home, table, line, station⟩
  · have asked := askAgain_home one noFrame f
    rw [HomeRecord.askingFor, only, stayFor_unfit unfit, leaveFor_unfit unfit, if_pos rfl, if_pos rfl] at asked
    have asked : s.askAgain (.home lot) f = (s.putHome lot { r with waiting := [] }).moveOn q := asked
    obtain ⟨moves, line, station⟩ := settled_moveOn (y := s.putHome lot { r with waiting := [] }) may
    rw [asked]
    exact ⟨moves, line, station⟩

end

end Sys2Proof.Machine

end

section
/-! Settles O56: the sender of an accepted HANDOVER gives its lot up (R117, R126). -/

namespace Sys2Proof.Machine

section
variable {s : State} {lot i : Nat} {r : HomeRecord} {e : LotEntry} {b : HandoverBody} {d : Departure} {f : Figures}

/-- The home record as its HANDOVER leaves it (R126). -/
def HomeRecord.handedOver (r : HomeRecord) (f : Figures) : HomeRecord :=
  { r with state := .away, figures := ⟨0, 0, 0⟩, lastSeen := some f, queue := [], handingOver := false }

/-- The entry as its HANDOVER leaves it (R126). -/
def LotEntry.handedOver (e : LotEntry) (f : Figures) : LotEntry :=
  { e with
    state := .copy, figures := some f, publishTimer := none, queue := [], handingOver := false, castout := false }

theorem handoverSent_home (one : s.OneHome lot r) (atHome : r.state = .atHome) (f : Figures) :
    s.handoverSent lot f = (s.putHome lot (r.handedOver f)).askAgain (.home lot) f := by
  have holds : r.holds = true := by rw [HomeRecord.holds, atHome]; rfl
  rw [State.handoverSent, one.recordOf]
  dsimp only
  rw [one.owned, if_pos holds]
  exact congrArg (State.askAgain · (.home lot) f) (one.update _)

theorem handoverSent_entry (one : s.OneEntry lot i e) (holds : e.holds = true) (f : Figures) :
    s.handoverSent lot f = ((s.putEntry i (e.handedOver f)).askAgain (.entry i) f).takeUpIncoming i := by
  rw [State.handoverSent, one.recordOf]
  dsimp only
  rw [one.owned, if_pos holds]
  exact congrArg (fun x => (State.askAgain x (.entry i) f).takeUpIncoming i) (updateEntry_at one.2.2 _)

theorem onHandover_sent (plan : s.planLot b.lot = some d) (within : b.figures.upTo d.capacity = b.figures) (sender : Nat) :
    s.onHandover sender b true = s.handoverSent b.lot b.figures := by
  rw [State.onHandover, plan]
  dsimp only
  rw [within, if_pos rfl]

end

/-- Settles O56: the record gives the lot up, what waits asks again or moves on, an incoming lot is taken up. -/
theorem handoverLeavesItsSender : Obligations.HandoverLeavesItsSender := by
  intro s b d q g running acts active short plan weight litres pieces kind age line stay aside
  have within := upTo_of_le weight litres pieces
  have stays (ws : List Request) : stay ws = stayFor b.figures ws := (stayFor_eq _ _).symm
  have leaves (ws : List Request) : aside ws = leaveFor b.figures ws := (leaveFor_eq _ _).symm
  refine ⟨fun r sending one atHome pending => ?_, fun i e sending one lot holds pending => ?_⟩
  · have sends := State.Sends.of_pending (body := .handover b) running acts active sending
      (one.pendingFrame.trans pending) kind age
    have ran := sends_handover sends short
    intro gone
    have now : State.OneHome (({ s with line := line } : State).putHome b.lot { r with frame := none }) b.lot
        { r with frame := none } := State.OneHome.put (s := { s with line := line }) one one.lot_eq
    have given : State.OneHome (({ s with line := line } : State).putHome b.lot gone) b.lot gone :=
      State.OneHome.put (s := { s with line := line }) one one.lot_eq
    have sent : (s.delivering (.home b.lot)).onHandover s.own b true =
        (({ s with line := line } : State).putHome b.lot gone).askAgain (.home b.lot) b.figures := by
      rw [delivering_home one]
      refine (onHandover_sent (s := ({ s with line := line } : State).putHome b.lot { r with frame := none }) plan within _).trans
        ((handoverSent_home now atHome _).trans ?_)
      exact congrArg (State.askAgain · _ _) (putHome_putHome _ (r := { r with frame := none }) one.lot_eq _)
    rw [sent] at ran
    obtain ⟨nothing, ends, moves⟩ := gaveUp_home given rfl b.figures
    refine ⟨fun waitless => ?_, fun may => ?_, fun x only unfit may => ?_⟩
    · rw [ran, nothing waitless]
      exact congrArg _ (settleLeaving_eq _)
    · rw [leaves] at may ⊢
      rw [stays]
      obtain ⟨refused, home, table, line', station⟩ := ends may
      refine ⟨_, ran, refused, line', station, table, home.trans ?_⟩
      exact congrArg State.home (putHome_putHome { s with line := line } (r := gone) one.lot_eq _)
    · obtain ⟨moved, line', station⟩ := moves x only unfit may
      rw [putHome_putHome { s with line := line } (r := gone) one.lot_eq] at moved
      exact ⟨_, ran, line', station, moved⟩
  · have sends := State.Sends.of_pending (body := .handover b) running acts active sending
      ((pendingFrame_at one.2.2).trans pending) kind age
    have ran := sends_handover sends short
    intro gone
    have now : State.OneEntry (({ s with line := line } : State).putEntry i { e with frame := none }) b.lot i
        { e with frame := none } := State.OneEntry.put (s := { s with line := line }) one one.lot_eq
    have given : (({ s with line := line } : State).putEntry i gone).table[i]? = some gone :=
      at_putEntry (s := { s with line := line }) one.2.2 gone
    have sent : (s.delivering (.entry i)).onHandover s.own b true =
        ((({ s with line := line } : State).putEntry i gone).askAgain (.entry i) b.figures).takeUpIncoming i := by
      rw [delivering_entry one.2.2]
      refine (onHandover_sent (s := ({ s with line := line } : State).putEntry i { e with frame := none }) plan within _).trans
        ((handoverSent_entry now ((holds_iff e).2 holds) _).trans ?_)
      exact congrArg (fun x : State => (x.askAgain (.entry i) b.figures).takeUpIncoming i) (putEntry_putEntry _ _ _ _)
    rw [sent] at ran
    obtain ⟨nothing, ends, moves⟩ := gaveUp_entry given rfl rfl b.figures
    refine ⟨fun waitless noIncoming => ?_, fun c waitless incoming => ⟨fun noWaiting => ?_, fun waits => ?_⟩,
      fun noIncoming may => ?_, fun x noIncoming only unfit may => ?_⟩
    · rw [ran, nothing waitless, takeUpIncoming_none given noIncoming]
      exact congrArg _ (settleLeaving_eq _)
    · rw [ran, nothing waitless, takeUpIncoming_some given incoming, if_pos noWaiting, putEntry_putEntry]
      exact congrArg _ (settleLeaving_eq _)
    · rw [ran, nothing waitless, takeUpIncoming_some given incoming, if_neg waits, putEntry_putEntry]
      exact congrArg _ (settleLeaving_eq _)
    · rw [leaves] at may ⊢
      rw [stays]
      obtain ⟨refused, table, home, line', station⟩ := ends noIncoming may
      refine ⟨_, ran, refused, line', station, home, table.trans ?_⟩
      exact congrArg State.table (putEntry_putEntry { s with line := line } i gone _)
    · obtain ⟨moved, line', station⟩ := moves x noIncoming only unfit may
      rw [putEntry_putEntry] at moved
      exact ⟨_, ran, line', station, moved⟩

end Sys2Proof.Machine

end

section
/-! The requests that wait for a lot at its arrival: each debited in ring order or set aside (R110, R111). -/

namespace Sys2Proof.Machine

/-! ### Requests served one after another -/

section
variable {s t u : State} {d : Departure} {mark : Bool} {n : Nat} {qs ws : List Request}

theorem State.Served.nil (counter : s.sequence = some n) (d : Departure) (mark : Bool) : s.Served s d mark [] [] n :=
  ⟨fun _ _ at' => absurd at' (by simp), fun _ h => absurd h List.not_mem_nil, fun _ _ _ => rfl, rfl, counter,
    fun bound => (min_eq_left bound).symm, fun bound => (min_eq_left bound).symm, rfl, setExactly_refl _, rfl, rfl, rfl,
    rfl, rfl, rfl, rfl, rfl⟩

theorem State.Served.append (h : s.Served t d mark qs [] n) (k : t.Served u d mark ws [] (n + (qs.flatMap (·.members)).length))
    (apart : ∀ j ∈ qs.flatMap (·.members), j ∉ ws.flatMap (·.members)) : s.Served u d mark (qs ++ ws) [] n := by
  obtain ⟨labelled, -, others, ring, -, labels, refusals, rejected, flags, pending, held, response, configuration, timebase,
    clock, store, screen⟩ := h
  obtain ⟨labelled', -, others', ring', sequence', labels', refusals', rejected', flags', pending', held', response',
    configuration', timebase', clock', store', screen'⟩ := k
  have config : t.config = s.config := by rw [State.config, configuration]; rfl
  have members : (qs ++ ws).flatMap (·.members) = qs.flatMap (·.members) ++ ws.flatMap (·.members) := List.flatMap_append
  rw [State.Served, members, List.length_append]
  refine ⟨fun k j at' => ?_, fun _ h => absurd h List.not_mem_nil, fun j out _ => ?_, by rw [ring', ring], ?_, fun bound => ?_,
    fun bound => ?_, rejected'.trans rejected, ?_, pending'.trans pending, held'.trans held, response'.trans response,
    configuration'.trans configuration, timebase'.trans timebase, clock'.trans clock, store'.trans store,
    screen'.trans screen⟩
  · by_cases first : k < (qs.flatMap (·.members)).length
    · rw [List.getElem?_append_left first] at at'
      rw [others' j (apart j (List.mem_of_getElem? at')) List.not_mem_nil]
      exact labelled k j at'
    · have first := Nat.le_of_not_lt first
      rw [List.getElem?_append_right first] at at'
      have fresh : j ∉ qs.flatMap (·.members) := fun h => apart j h (List.mem_of_getElem? at')
      obtain ⟨tag, record, rating, label⟩ := labelled' _ j at'
      rw [Nat.add_assoc, Nat.add_sub_cancel' first, config] at label
      rw [others j fresh List.not_mem_nil] at record rating
      exact ⟨tag, record, rating, label⟩
  · rw [List.mem_append, not_or] at out
    rw [others' j out.2 List.not_mem_nil, others j out.1 List.not_mem_nil]
  · rw [sequence', Nat.add_assoc]
  · have counted := labels bound
    rw [labels' (by omega), counted]
    omega
  · have same : t.unit.recordsRefused = s.unit.recordsRefused := (refusals bound).trans (min_eq_left bound)
    rw [refusals' (by rw [same]; exact bound), same]
  · exact flags.trans flags'

theorem State.Served.refused (h : s.Served t d mark qs [] n) (k : t.EndRefused u ws)
    (apart : ∀ j ∈ qs.flatMap (·.members), j ∉ ws.flatMap (·.members)) : s.Served u d mark qs ws n := by
  obtain ⟨labelled, -, others, ring, sequence, labels, refusals, rejected, flags, pending, held, response, configuration,
    timebase, clock, store, screen⟩ := h
  obtain ⟨refused', others', sequence', labels', refusals', flags', ring', rejected', pending', held', response',
    configuration', timebase', clock', store', screen'⟩ := k
  refine ⟨fun k j at' => ?_, fun j inAside => ?_, fun j out out' => ?_, by rw [ring', ring], sequence'.trans sequence,
    fun bound => ?_, fun bound => ?_, rejected'.trans rejected, ?_, pending'.trans pending, held'.trans held,
    response'.trans response, configuration'.trans configuration, timebase'.trans timebase, clock'.trans clock,
    store'.trans store, screen'.trans screen⟩
  · rw [others' j (apart j (List.mem_of_getElem? at'))]
    exact labelled k j at'
  · have fresh : j ∉ qs.flatMap (·.members) := fun h => apart j h inAside
    rw [← others j fresh List.not_mem_nil]
    exact refused' j inAside
  · rw [others' j out', others j out List.not_mem_nil]
  · rw [labels', labels bound]
  · have same : t.unit.recordsRefused = s.unit.recordsRefused := (refusals bound).trans (min_eq_left bound)
    rw [refusals' (by rw [same]; exact bound), same]
  · rw [if_pos rfl] at flags
    exact flags.trans flags'

end

/-! ### The figures taken -/

/-- The figures taken by requests, one after another (R110). -/
def State.takeAll (s : State) (ref : RecordRef) (qs : List Request) : State :=
  qs.foldl (fun s q => s.takeFigures ref q.figures) s

/-- The figures left by requests taken one after another. -/
def lessenAll (f : Figures) (qs : List Request) : Figures := qs.foldl (fun f q => f.lessen q.figures) f

theorem serve_left (f : Figures) (qs : List Request) : (serve f qs).2.2 = lessenAll f (serve f qs).1 := by
  induction qs generalizing f with
  | nil => rfl
  | cons q qs ih =>
    rw [serve]
    split
    · exact ih _
    · exact ih f

section
variable {s t : State} {ref : RecordRef} {lot : Nat} {f : Figures} {mark : Bool}

theorem takeFigures_records (s : State) (ref : RecordRef) (q : Figures) : s.takeFigures ref q =
    s.withRecords (s.takeFigures ref q).home (s.takeFigures ref q).table (s.takeFigures ref q).ordinal := by
  cases ref <;> rfl

theorem takeFigures_congr (same : LotsStay s t) (configuration : t.configuration = s.configuration) (q : Figures) :
    LotsStay (s.takeFigures ref q) (t.takeFigures ref q) := by
  obtain ⟨home, table, line, station, ordinal⟩ := same
  have config : t.config = s.config := by rw [State.config, configuration]; rfl
  cases ref with
  | home lot => exact ⟨by simp only [State.takeFigures, State.updateHome, home], table, line, station, ordinal⟩
  | entry i =>
    refine ⟨home, ?_, line, station, congrArg (· + 1) ordinal⟩
    simp only [State.takeFigures, State.updateEntry, State.nextOrdinal, table, config, ordinal]

theorem takeAll_congr (same : LotsStay s t) (configuration : t.configuration = s.configuration) (qs : List Request) :
    LotsStay (s.takeAll ref qs) (t.takeAll ref qs) := by
  induction qs generalizing s t with
  | nil => exact same
  | cons q qs ih =>
    refine ih (takeFigures_congr same configuration q.figures) ?_
    show (t.takeFigures ref q.figures).configuration = (s.takeFigures ref q.figures).configuration
    rw [takeFigures_records t, takeFigures_records s]
    exact configuration

theorem owned_takeFigures (owned : s.owned ref = some (lot, f, mark)) (q : Figures) :
    (s.takeFigures ref q).owned ref = some (lot, f.lessen q, mark) := by
  cases ref with
  | home l =>
    have found : (s.takeFigures (.home l) q).findHome l =
        (s.findHome l).map fun r => { r with figures := r.figures.lessen q } :=
      (findHome_updateHome s l l (f := fun r => { r with figures := r.figures.lessen q }) fun _ => rfl).trans (if_pos rfl)
    rw [State.owned] at owned ⊢
    rw [found]
    cases stored : s.findHome l with
    | none => rw [stored] at owned; cases owned
    | some r =>
      rw [stored] at owned
      dsimp only at owned
      split at owned
      case isTrue holds =>
        cases owned
        exact if_pos holds
      case isFalse => cases owned
  | entry i =>
    rw [State.owned] at owned
    cases named : (s.entry i).lot with
    | none => rw [named] at owned; cases owned
    | some l =>
      rw [named] at owned
      dsimp only at owned
      split at owned
      case isTrue holds =>
        cases owned
        have inTable : i < s.table.length := by
          by_contra out
          rw [entry_of_ge s i out] at named
          cases named
        have taken : (s.takeFigures (.entry i) q).entry i = { s.entry i with
            figures := some (((s.entry i).figures.getD .zero).lessen q)
            state := .ownedModified
            publishTimer := some ((s.entry i).publishTimer.getD (seconds s.config.publishDelay))
            lastUse := s.ordinal, lastDebit := s.ordinal } :=
          (entry_updateEntry s i i _).trans (if_pos ⟨rfl, inTable⟩)
        rw [State.owned, taken]
        dsimp only
        rw [named]
        rfl
      case isFalse => cases owned

end

/-! ### The first pass over a waiting list (R111) -/

section
variable {s t : State} {ref : RecordRef} {lot n : Nat} {f : Figures} {mark : Bool} {d : Departure} {qs : List Request}

theorem served_sublist (f : Figures) (qs : List Request) : (serve f qs).1.Sublist qs ∧ (serve f qs).2.1.Sublist qs := by
  induction qs generalizing f with
  | nil => exact ⟨.slnil, .slnil⟩
  | cons q qs ih =>
    rw [serve]
    split
    · exact ⟨(ih _).1.cons_cons q, (ih _).2.cons q⟩
    · exact ⟨(ih f).1.cons q, (ih f).2.cons_cons q⟩

/-- Nobody is both served and set aside. -/
theorem served_apart (may : s.MayServe qs) (f : Figures) :
    ∀ j ∈ (serve f qs).1.flatMap (·.members), j ∉ (serve f qs).2.1.flatMap (·.members) := by
  induction qs generalizing s f with
  | nil => exact fun _ h => absurd h List.not_mem_nil
  | cons q qs ih =>
    have tail := may.sublist (List.sublist_cons_self q qs)
    rw [serve]
    split
    · intro j served aside
      rw [List.flatMap_cons] at served
      obtain first | later := List.mem_append.1 served
      · exact may.apart j first (((served_sublist _ qs).2.flatMap (·.members)).subset aside)
      · exact ih tail _ j later aside
    · intro j served aside
      rw [List.flatMap_cons] at aside
      obtain first | later := List.mem_append.1 aside
      · exact may.apart j first (((served_sublist f qs).1.flatMap (·.members)).subset served)
      · exact ih tail f j served later

theorem planLot_congr (store : t.store = s.store) (lot : Nat) : t.planLot lot = s.planLot lot := by
  rw [State.planLot, State.planLot, State.tariff, State.tariff, store]

theorem minute_congr (clock : t.clock = s.clock) : t.minute = s.minute := by rw [State.minute, State.minute, clock]

theorem owned_congr (home : t.home = s.home) (table : t.table = s.table) : t.owned ref = s.owned ref := by
  cases ref with
  | home l => rw [State.owned, State.owned, State.findHome, State.findHome, home]
  | entry i => rw [State.owned, State.owned, State.entry, State.entry, table]

theorem trial_late (owned : s.owned ref = some (lot, f, mark)) (plan : s.planLot lot = some d) (late : d.cutOff ≤ s.minute)
    (qs : List Request) : s.trial ref qs = (s, qs) := by
  have past : s.pastCutOff lot = true := by
    rw [pastCutOff_eq plan]
    exact decide_eq_true late
  induction qs with
  | nil => rfl
  | cons q qs ih =>
    have none : s.debit ref q = none := by
      rw [State.debit, owned]
      exact if_pos (by rw [past]; rfl)
    rw [State.trial, none]
    dsimp only
    rw [ih]

/-- Before the cut-off the requests that fit are debited and labelled in ring order (R111). -/
theorem trial_early (owned : s.owned ref = some (lot, f, mark)) (plan : s.planLot lot = some d) (early : s.minute < d.cutOff)
    (may : s.MayServe qs) (counter : s.sequence = some n)
    (covered : n + ((serve f qs).1.flatMap (·.members)).length ≤ 100000) :
    (s.trial ref qs).2 = (serve f qs).2.1 ∧ s.Served (s.trial ref qs).1 d mark (serve f qs).1 [] n ∧
      LotsStay (s.takeAll ref (serve f qs).1) (s.trial ref qs).1 := by
  induction qs generalizing s f n with
  | nil => exact ⟨rfl, State.Served.nil counter d mark, .refl s⟩
  | cons q qs ih =>
    by_cases room : FitsIn q.figures f
    · have out : serve f (q :: qs) = (q :: (serve (f.lessen q.figures) qs).1, (serve (f.lessen q.figures) qs).2) := if_pos room
      rw [out] at covered ⊢
      dsimp only at covered ⊢
      rw [List.flatMap_cons, List.length_append, ← Nat.add_assoc] at covered
      have cover : s.canCover q.pieces = true := (canCover_iff counter).2 (Nat.le_trans (Nat.le_add_right _ _) covered)
      have debited := debit_fits owned plan early room
      rw [if_pos cover] at debited
      have records := takeFigures_records s ref q.figures
      have all : (s.takeFigures ref q.figures).AllSeeking q.members := by
        rw [records]
        exact may.head.withRecords _ _ _
      have counter' : (s.takeFigures ref q.figures).sequence = some n := by rw [records]; exact counter
      have labels := labels_labelRequest all counter' (d.fields q mark)
      have sameRecords := labelRequest_home (s.takeFigures ref q.figures) q (d.fields q mark)
      have lots : LotsStay (s.takeFigures ref q.figures) ((s.takeFigures ref q.figures).labelRequest q (d.fields q mark)) := by
        refine ⟨sameRecords.1, sameRecords.2, ?_, ?_, ?_⟩ <;> rw [labels.rest]
      have configured : ((s.takeFigures ref q.figures).labelRequest q (d.fields q mark)).configuration =
          (s.takeFigures ref q.figures).configuration := by rw [labels.rest]
      have first : s.Served ((s.takeFigures ref q.figures).labelRequest q (d.fields q mark)) d mark [q] [] n := by
        rw [records] at labels ⊢
        exact served_of_labels labels
      have step := (LotStep.takeFigures s ref q.figures).trans
        (LotStep.labelRequest (s.takeFigures ref q.figures) q (d.fields q mark) ((canCover_iff counter').2 ((canCover_iff counter).1 cover)))
      have others (j : Nat) (out : j ∉ q.members) :
          ((s.takeFigures ref q.figures).labelRequest q (d.fields q mark)).slot j = s.slot j := by
        rw [labels.others j out, records]
        rfl
      have counted := congrArg State.sequence labels.rest
      have stay := takeAll_congr (ref := ref) lots configured (serve (f.lessen q.figures) qs).1
      have owned' := (owned_congr (ref := ref) lots.home lots.table).trans (owned_takeFigures owned q.figures)
      generalize (s.takeFigures ref q.figures).labelRequest q (d.fields q mark) = t at *
      obtain ⟨aside, served, stay'⟩ := ih owned' ((planLot_congr step.store lot).trans plan)
        (by rw [minute_congr step.clock]; exact early) (may.tail others) counted covered
      rw [State.trial, debited]
      have apart : ∀ j ∈ [q].flatMap (·.members), j ∉ ((serve (f.lessen q.figures) qs).1).flatMap (·.members) := by
        rw [List.flatMap_singleton]
        exact fun j first later => may.apart j first (((served_sublist _ qs).1.flatMap (·.members)).subset later)
      refine ⟨aside, first.append ?_ apart, stay.trans stay'⟩
      rw [List.flatMap_singleton]
      exact served
    · have out : serve f (q :: qs) = ((serve f qs).1, q :: (serve f qs).2.1, (serve f qs).2.2) := if_neg room
      rw [out] at covered ⊢
      obtain ⟨aside, served, stay⟩ := ih owned plan early (may.sublist (List.sublist_cons_self q qs)) counter covered
      rw [State.trial, debit_tooLittle owned room]
      exact ⟨congrArg (q :: ·) aside, served, stay⟩

/-- The requests of a lot that has just arrived: served in ring order, or set aside and refused (R111). -/
theorem trial_spec (owned : s.owned ref = some (lot, f, mark)) (plan : s.planLot lot = some d)
    (arrives : s.MayArrive d f qs n) :
    s.Served ((s.trial ref qs).1.moveOnAll (s.trial ref qs).2) d mark (s.arrival d f qs).1 (s.arrival d f qs).2.1 n ∧
      LotsStay (s.takeAll ref (s.arrival d f qs).1) ((s.trial ref qs).1.moveOnAll (s.trial ref qs).2) := by
  obtain ⟨may, counter, covered, none⟩ := arrives
  rw [State.arrival] at *
  by_cases early : s.minute < d.cutOff
  · rw [if_pos early] at *
    obtain ⟨aside, served, stay⟩ := trial_early owned plan early may counter covered
    have others := served.2.2.1
    have configuration : (s.trial ref qs).1.config = s.config := by
      rw [State.config, (LotStep.trial s ref qs).configuration]
      rfl
    have apart := served_apart may f
    have may' : (s.trial ref qs).1.MayServe (serve f qs).2.1 :=
      (may.sublist (served_sublist f qs).2).congr fun j inAside => others j (fun h => apart j h inAside) List.not_mem_nil
    have none' : (serve f qs).2.1 = [] ∨ (s.trial ref qs).1.NoneLeft (serve f qs).2.1 :=
      none.imp_right fun ⟨mask, left⟩ => ⟨by rw [configuration]; exact mask, left⟩
    obtain ⟨ends, stay'⟩ := endRefused_moveOnAll may' none'
    rw [aside]
    exact ⟨served.refused ends apart, stay.trans stay'⟩
  · rw [if_neg early] at *
    obtain ⟨ends, stay⟩ := endRefused_moveOnAll may none
    rw [trial_late owned plan (Nat.le_of_not_lt early)]
    exact ⟨(State.Served.nil counter d mark).refused ends (fun _ h => absurd h List.not_mem_nil), stay⟩

theorem debitWaiting_spec (owned : (s.setWaiting ref []).owned ref = some (lot, f, mark))
    (plan : (s.setWaiting ref []).planLot lot = some d) (arrives : (s.setWaiting ref []).MayArrive d f (s.waitingAt ref) n) :
    let out := (s.setWaiting ref []).arrival d f (s.waitingAt ref)
    (s.setWaiting ref []).Served (s.debitWaiting ref) d mark out.1 out.2.1 n ∧
      LotsStay ((s.setWaiting ref []).takeAll ref out.1) (s.debitWaiting ref) := trial_spec owned plan arrives

theorem debitWaiting_nothing (waitless : s.waitingAt ref = []) : s.debitWaiting ref = s.setWaiting ref [] := by
  rw [State.debitWaiting, waitless]
  rfl

/-- One request alone that cannot be served is set aside and moves on. -/
theorem debitWaiting_aside {q : Request} (only : s.waitingAt ref = [q])
    (owned : (s.setWaiting ref []).owned ref = some (lot, f, mark)) (plan : (s.setWaiting ref []).planLot lot = some d)
    (unserved : d.cutOff ≤ (s.setWaiting ref []).minute ∨ ¬ FitsIn q.figures f) :
    s.debitWaiting ref = (s.setWaiting ref []).moveOn q := by
  have none : (s.setWaiting ref []).debit ref q = none := by
    obtain late | tooLittle := unserved
    · rw [State.debit, owned]
      exact if_pos (by rw [pastCutOff_eq plan, decide_eq_true late]; rfl)
    · exact debit_tooLittle owned tooLittle
  rw [State.debitWaiting, only, State.trial, none]
  rfl

/-- One request alone that fits, with no number left for it (R87, R167). -/
theorem debitWaiting_unnumbered {q : Request} (only : s.waitingAt ref = [q])
    (owned : (s.setWaiting ref []).owned ref = some (lot, f, mark)) (plan : (s.setWaiting ref []).planLot lot = some d)
    (early : (s.setWaiting ref []).minute < d.cutOff) (room : FitsIn q.figures f)
    (counter : (s.setWaiting ref []).sequence = some n) (short : 100000 < n + q.members.length) :
    s.debitWaiting ref = (s.setWaiting ref []).refuseNoNumber q := by
  have uncovered : ¬ (s.setWaiting ref []).canCover q.pieces = true :=
    fun h => absurd ((canCover_iff counter).1 h) (Nat.not_le.2 short)
  rw [State.debitWaiting, only, State.trial, debit_fits owned plan early room, if_neg uncovered]
  rfl

/-! ### The owner's record after its debits -/

theorem takeAll_home {r : HomeRecord} (one : s.OneHome lot r) (qs : List Request) :
    s.takeAll (.home lot) qs = s.putHome lot { r with figures := lessenAll r.figures qs } := by
  induction qs generalizing s r with
  | nil => exact (putHome_self one).symm
  | cons q qs ih =>
    have taken : s.takeFigures (.home lot) q.figures = s.putHome lot { r with figures := r.figures.lessen q.figures } :=
      one.update fun r => { r with figures := r.figures.lessen q.figures }
    show (s.takeFigures (.home lot) q.figures).takeAll (.home lot) qs = _
    rw [taken]
    refine (ih (one.put (r' := { r with figures := r.figures.lessen q.figures }) one.lot_eq)).trans ?_
    exact putHome_putHome s (r := { r with figures := r.figures.lessen q.figures }) one.lot_eq _

/-- An entry debited by requests is OWNED-MODIFIED, its publish timer running (R110, R138). -/
theorem takeAll_entry {i : Nat} {e : LotEntry} (found : s.table[i]? = some e) (q : Request) (qs : List Request) : ∃ o a b,
    s.takeAll (.entry i) (q :: qs) = { s.putEntry i { e with
      figures := some (lessenAll (e.figures.getD .zero) (q :: qs)), state := .ownedModified
      publishTimer := some (e.publishTimer.getD (seconds s.config.publishDelay)), lastUse := a, lastDebit := b } with
      ordinal := o } := by
  induction qs generalizing s e q with
  | nil => exact ⟨_, _, _, congrArg State.nextOrdinal (updateEntry_at found _)⟩
  | cons q' qs ih =>
    have taken : s.takeFigures (.entry i) q.figures = (s.putEntry i { e with
        figures := some ((e.figures.getD .zero).lessen q.figures), state := .ownedModified
        publishTimer := some (e.publishTimer.getD (seconds s.config.publishDelay))
        lastUse := s.ordinal, lastDebit := s.ordinal }).nextOrdinal := congrArg State.nextOrdinal (updateEntry_at found _)
    have now := (congrArg (·.table[i]?) taken).trans (at_putEntry found _)
    obtain ⟨o, a, b, rest⟩ := ih now q'
    refine ⟨o, a, b, (show (s.takeFigures (.entry i) q.figures).takeAll (.entry i) (q' :: qs) = _ from rest).trans ?_⟩
    rw [taken]
    exact congrArg (fun x : State => { x with ordinal := o }) (putEntry_putEntry s i _ _)

end

end Sys2Proof.Machine

end

section
/-! Settles O58: a RECLAIM takes the lot from its owner back to its home (R111, R113, R117, R134 to R137). -/

namespace Sys2Proof.Machine

/-! ### A home record that has taken its lot -/

section
variable {s t : State} {lot n : Nat} {r : HomeRecord} {d : Departure}

theorem oneHome_congr (same : t.home = s.home) (one : s.OneHome lot r) : t.OneHome lot r :=
  HomesApart.of_home (lot := lot + 1) same lot r (Nat.ne_of_lt (Nat.lt_succ_self lot)) one

theorem setWaiting_home (one : s.OneHome lot r) (ws : List Request) :
    s.setWaiting (.home lot) ws = s.putHome lot { r with waiting := ws } := one.update _

theorem owned_atHome (one : s.OneHome lot r) (atHome : r.state = .atHome) :
    s.owned (.home lot) = some (lot, r.figures, r.reclaimed) := by
  rw [one.owned, if_pos (by rw [HomeRecord.holds, atHome]; rfl)]

/-- The requests waiting on a home record that owns its lot (R111). -/
theorem debitWaiting_home (one : s.OneHome lot r) (atHome : r.state = .atHome) (plan : s.planLot lot = some d)
    (arrives : s.MayArrive d r.figures r.waiting n) :
    s.Served (s.debitWaiting (.home lot)) d r.reclaimed (s.arrival d r.figures r.waiting).1
      (s.arrival d r.figures r.waiting).2.1 n ∧
    LotsStay (s.putHome lot { r with figures := (s.arrival d r.figures r.waiting).2.2, waiting := [] })
      (s.debitWaiting (.home lot)) := by
  have now : (s.putHome lot { r with waiting := [] }).OneHome lot { r with waiting := [] } := one.put one.lot_eq
  have kept := setWaiting_home one []
  have left : (s.arrival d r.figures r.waiting).2.2 = lessenAll r.figures (s.arrival d r.figures r.waiting).1 := by
    rw [State.arrival]
    split
    · exact serve_left _ _
    · rfl
  have spec := debitWaiting_spec (s := s) (ref := .home lot) (lot := lot) (f := r.figures) (mark := r.reclaimed) (d := d)
    (n := n) (by rw [kept]; exact owned_atHome (r := { r with waiting := [] }) now atHome) (by rw [kept]; exact plan)
    (by rw [kept, one.waitingAt]; exact arrives)
  rw [kept, one.waitingAt] at spec
  obtain ⟨served, stay⟩ := spec
  rw [takeAll_home now, putHome_putHome s (r := { r with waiting := [] }) one.lot_eq] at stay
  rw [left]
  exact ⟨served, stay⟩

/-- The test for TALLY of a home record that owns its lot, with no frame and no queue. -/
theorem testTally_home (one : s.OneHome lot r) (atHome : r.state = .atHome) (noQueue : r.queue = []) (noFrame : r.frame = none)
    (plan : s.planLot lot = some d) : s.testTally (.home lot) = if d.cutOff ≤ s.minute then
      (s.putHome lot { r with frame := some ⟨.tally, 0, s.ordinal⟩ }).nextOrdinal else s := by
  have past := pastCutOff_eq plan
  by_cases late : d.cutOff ≤ s.minute
  · have due : (r.holds && s.pastCutOff lot && r.queue.isEmpty && queueable r.frame .tally) = true := by
      rw [HomeRecord.holds, atHome, past, decide_eq_true late, noQueue, noFrame]
      rfl
    rw [if_pos late, one.testTally_due due, HomeRecord.queued_fresh noFrame rfl]
  · rw [if_neg late, one.testTally_early (past.trans (decide_eq_false late))]

end

/-! ### RECLAIM -/

section
variable {s : State} {lot i : Nat} {r : HomeRecord} {e : LotEntry} {f : Figures} {d : Departure}

theorem onReclaim_entry (plan : s.planLot lot = some d) (within : f.upTo d.capacity = f) (one : s.OneEntry lot i e)
    (mine : Bool) : s.onReclaim lot f mine = if e.holds then s.loseToReclaim i f else s.hearReclaim i f := by
  rw [State.onReclaim, plan]
  dsimp only
  rw [one.recordOf, within]
  dsimp only
  rw [entry_at one.2.2]

/-- The entry that a RECLAIM takes its lot from (R135). -/
def LotEntry.reclaimedFrom (e : LotEntry) (f : Figures) : LotEntry :=
  { e with
    state := .copy, figures := some f, reclaimed := true, queue := [], handingOver := false, castout := false
    publishTimer := none, frame := none }

theorem loseToReclaim_eq (found : s.table[i]? = some e) (f : Figures) : s.loseToReclaim i f =
    (((s.raise .lotReclaimed).putEntry i (e.reclaimedFrom f)).askAgain (.entry i) f).takeUpIncoming i := by
  rw [State.loseToReclaim, updateEntry_at found]
  rfl

theorem hearReclaim_asking (found : s.table[i]? = some e) (asking : e.state = .asking) (noFrame : e.frame = none)
    (f : Figures) : s.hearReclaim i f = (s.putEntry i { e with
      figures := some f, reclaimed := true, attempts := 0, fetchTimer := none
      frame := some ⟨.fetch, 0, s.ordinal⟩ }).nextOrdinal := by
  have hears : s.hearReclaim i f = (s.updateEntry i (fun e =>
      { e with figures := some f, reclaimed := true, attempts := 0, fetchTimer := none })).queue (.entry i) .fetch 0 := by
    rw [State.hearReclaim, entry_at found, asking]
  rw [hears, updateEntry_at found, queue_at (at_putEntry found _), putEntry_putEntry, LotEntry.queued_fresh
    (e := { e with figures := some f, reclaimed := true, attempts := 0, fetchTimer := none }) noFrame rfl rfl]
  rfl

theorem hearReclaim_idle (found : s.table[i]? = some e) (idle : e.state = .copy ∨ e.state = .free) (f : Figures) :
    s.hearReclaim i f = s.putEntry i
      { e with state := .copy, figures := some f, reclaimed := true, unreachable := none, frame := none } := by
  rw [State.hearReclaim, entry_at found]
  obtain state | state := idle <;> rw [state] <;> exact updateEntry_at found _

/-- The home record as its own RECLAIM leaves it, before its requests are served (R134). -/
def HomeRecord.reclaimedBy (r : HomeRecord) (f : Figures) : HomeRecord :=
  { r with
    state := .atHome, figures := f, lastSeen := none, reclaimed := true, queue := [], attempts := 0, fetchTimer := none }

theorem onReclaim_home (plan : s.planLot lot = some d) (within : f.upTo d.capacity = f) (one : s.OneHome lot r)
    (lost : r.state = .away ∨ r.state = .unknown ∨ r.state = .askingHome) : s.onReclaim lot f true =
      ((s.putHome lot (r.reclaimedBy f)).debitWaiting (.home lot)).testTally (.home lot) := by
  rw [State.onReclaim, plan]
  dsimp only
  rw [one.recordOf, within]
  dsimp only
  rw [one.1]
  dsimp only
  have home : s.reclaimHome lot f = ((s.putHome lot (r.reclaimedBy f)).debitWaiting (.home lot)).testTally (.home lot) :=
    congrArg (fun x : State => (x.debitWaiting (.home lot)).testTally (.home lot)) (one.update _)
  obtain state | state | state := lost <;> rw [state] <;> exact (if_pos rfl).trans home

end

/-- Settles O58: an entry gives the lot up as at a HANDOVER, marked; the home serves what waits, then is tested for TALLY. -/
theorem reclaimTakesTheLotBack : Obligations.ReclaimTakesTheLotBack := by
  intro s sender lot f d plan weight litres pieces stay aside
  have within := upTo_of_le weight litres pieces
  have stays (ws : List Request) : stay ws = stayFor f ws := (stayFor_eq _ _).symm
  have leaves (ws : List Request) : aside ws = leaveFor f ws := (leaveFor_eq _ _).symm
  refine ⟨fun i e hears one named => ?_, fun r g q running acts active one lost pending kind age sending => ?_⟩
  · have ran := hears_reclaim hears lot f
    rw [onReclaim_entry (s := s.hearing sender) plan within one] at ran
    refine ⟨fun holds => ?_, fun idle => ?_, fun asking noFrame => ?_⟩
    · rw [if_pos ((holds_iff e).2 holds), loseToReclaim_eq (s := s.hearing sender) one.2.2] at ran
      intro marked gone taking
      have given : (marked.putEntry i gone).table[i]? = some gone := at_putEntry (s := marked) one.2.2 gone
      have ran : exec (.reclaimAccepted sender lot f) s =
        .next (((marked.putEntry i gone).askAgain (.entry i) f).takeUpIncoming i).settleLeaving := ran
      obtain ⟨nothing, ends, moves⟩ := gaveUp_entry given rfl rfl f
      refine ⟨fun waitless noIncoming => ?_, fun c waitless incoming => ⟨fun noWaiting => ?_, fun waits => ?_⟩,
        fun noIncoming may => ?_, fun q noIncoming only unfit may => ?_⟩
      · rw [ran, nothing waitless, takeUpIncoming_none given noIncoming]
        exact congrArg _ (settleLeaving_eq _)
      · rw [ran, nothing waitless, takeUpIncoming_some given incoming, if_pos noWaiting, putEntry_putEntry]
        exact congrArg _ (settleLeaving_eq _)
      · rw [ran, nothing waitless, takeUpIncoming_some given incoming, if_neg waits, putEntry_putEntry]
        exact congrArg _ (settleLeaving_eq _)
      · rw [leaves] at may ⊢
        rw [stays]
        obtain ⟨refused, table, home, line', station⟩ := ends noIncoming may
        refine ⟨_, ran, refused, line', station, home, table.trans ?_⟩
        exact congrArg State.table (putEntry_putEntry marked i gone _)
      · obtain ⟨moved, line', station⟩ := moves q noIncoming only unfit may
        rw [putEntry_putEntry] at moved
        exact ⟨_, ran, line', station, moved⟩
    · have free : ¬ e.holds = true := by
        rw [holds_iff]
        obtain state | state := idle <;> rw [state] <;> nofun
      rw [if_neg free, hearReclaim_idle (s := s.hearing sender) one.2.2 idle] at ran
      rw [ran]
      refine congrArg _ ((settleLeaving_eq _).trans ?_)
      exact congrArg (fun st : StationState => ({ (s.hearing sender).putEntry i { e with
        state := .copy, figures := some f, reclaimed := true, unreachable := none, frame := none } with station := st } :
        State)) (settled_putEntry_same s one.2.2 ((Bool.not_eq_true _).mp free).symm)
    · have free : ¬ e.holds = true := by
        rw [holds_iff, asking]
        nofun
      rw [if_neg free, hearReclaim_asking (s := s.hearing sender) one.2.2 asking noFrame] at ran
      rw [ran]
      refine congrArg _ ((settleLeaving_eq _).trans ?_)
      exact congrArg (fun st : StationState => ({ (s.hearing sender).putEntry i { e with
        figures := some f, reclaimed := true, attempts := 0, fetchTimer := none
        frame := some ⟨.fetch, 0, s.ordinal⟩ } with ordinal := s.ordinal + 1, station := st } : State))
        (settled_putEntry_same s one.2.2 rfl)
  · have sends := State.Sends.of_pending (body := .reclaim lot f) running acts active sending
      (one.pendingFrame.trans pending) kind age
    have ran := sends_reclaim sends
    intro back
    let line := s.line.delivered s.own
    let owning : HomeRecord := ({ r with frame := none } : HomeRecord).reclaimedBy f
    have now : State.OneHome (({ s with line := line } : State).putHome lot { r with frame := none }) lot
        { r with frame := none } := State.OneHome.put (s := { s with line := line }) one one.lot_eq
    have owner : State.OneHome (({ s with line := line } : State).putHome lot owning) lot owning :=
      State.OneHome.put (s := { s with line := line }) one one.lot_eq
    have taken : (s.delivering (.home lot)).onReclaim lot f true =
        ((({ s with line := line } : State).putHome lot owning).debitWaiting (.home lot)).testTally (.home lot) := by
      rw [delivering_home one, onReclaim_home (s := ({ s with line := line } : State).putHome lot { r with frame := none })
        plan within now lost, putHome_putHome _ (r := { r with frame := none }) one.lot_eq]
    rw [taken] at ran
    refine ⟨fun waitless => ?_, fun n arrives => ?_⟩
    · have held : State.OneHome (({ s with line := line } : State).putHome lot { owning with waiting := [] }) lot
          { owning with waiting := [] } := State.OneHome.put (s := { s with line := line }) one one.lot_eq
      rw [debitWaiting_nothing (owner.waitingAt.trans waitless), setWaiting_home owner,
        putHome_putHome { s with line := line } (r := owning) one.lot_eq, testTally_home held rfl rfl rfl plan,
        putHome_putHome { s with line := line } (r := { owning with waiting := [] }) one.lot_eq] at ran
      refine ⟨fun early => ?_, fun late => ?_⟩
      · rw [ran]
        refine congrArg _ ((congrArg State.settleLeaving (if_neg (Nat.not_le.2 early))).trans ?_)
        exact settleLeaving_eq _
      · rw [ran]
        refine congrArg _ ((congrArg State.settleLeaving (if_pos late)).trans ?_)
        exact settleLeaving_eq _
    · obtain ⟨served, stay⟩ := debitWaiting_home owner rfl plan arrives
      have step := LotStep.debitWaiting (({ s with line := line } : State).putHome lot owning) (.home lot)
      intro out
      rw [putHome_putHome { s with line := line } (r := owning) one.lot_eq] at stay
      have held := oneHome_congr stay.home (State.OneHome.put (s := { s with line := line })
        (r' := { owning with figures := out.2.2, waiting := [] }) one one.lot_eq)
      generalize (({ s with line := line } : State).putHome lot owning).debitWaiting (.home lot) = v at ran served stay step held
      have minute : v.minute = s.minute := minute_congr step.clock
      rw [testTally_home held rfl rfl rfl ((planLot_congr step.store lot).trans plan), minute, settleLeaving_eq] at ran
      by_cases late : d.cutOff ≤ s.minute
      · rw [if_pos late] at ran
        refine ⟨_, some ⟨.tally, 0, v.ordinal⟩, ran, served, ?_, stay.table, stay.line, ?_,
          fun early => absurd late (Nat.not_le.2 early), fun _ => ⟨_, rfl⟩⟩
        · exact (congrArg (List.map _) stay.home).trans (congrArg State.home (putHome_putHome { s with line := line }
            (r := { owning with figures := out.2.2, waiting := [] }) one.lot_eq _))
        · exact (settled_congr (table := v.table) step.station).trans (congrArg s.settled stay.table)
      · rw [if_neg late] at ran
        exact ⟨_, none, ran, served, stay.home, stay.table, stay.line,
          (settled_congr step.station).trans (congrArg s.settled stay.table), fun _ => rfl, fun h => absurd h late⟩

end Sys2Proof.Machine

end

section
/-! The recipient of a HANDOVER: the carried queue, the requests that wait, and what becomes of the lot then (R111, R127,
R128, R145, R187). -/

namespace Sys2Proof.Machine

/-! ### The carried queue (R187) -/

/-- What a carried queue adds to the numbers taken so far. -/
theorem carriedQueue_spec (recipient : Nat) (taken qs : List Nat) : ∃ more, carriedQueue recipient taken qs = taken ++ more ∧
    more.Sublist qs ∧ more.Nodup ∧ (∀ n ∈ more, n ≤ 31 ∧ n ≠ recipient ∧ n ∉ taken) ∧
    ∀ n ∈ qs, n ≤ 31 → n ≠ recipient → n ∈ taken ++ more := by
  induction qs generalizing taken with
  | nil => exact ⟨[], (List.append_nil _).symm, .slnil, .nil, fun _ h => absurd h List.not_mem_nil,
      fun _ h => absurd h List.not_mem_nil⟩
  | cons q qs ih =>
    rw [carriedQueue]
    by_cases dropped : 31 < q ∨ q = recipient ∨ q ∈ taken
    · rw [if_pos dropped]
      obtain ⟨more, whole, sub, nodup, fit, all⟩ := ih taken
      refine ⟨more, whole, sub.cons q, nodup, fit, fun n inList small other => ?_⟩
      obtain rfl | later := List.mem_cons.1 inList
      · obtain large | same | already := dropped
        · exact absurd small (Nat.not_le.2 large)
        · exact absurd same other
        · exact List.mem_append_left _ already
      · exact all n later small other
    · rw [if_neg dropped]
      rw [not_or, not_or, Nat.not_lt] at dropped
      obtain ⟨small, other, fresh⟩ := dropped
      obtain ⟨more, whole, sub, nodup, fit, all⟩ := ih (taken ++ [q])
      rw [List.append_assoc] at whole all
      refine ⟨q :: more, whole, sub.cons_cons q, List.nodup_cons.2 ⟨fun h => ?_, nodup⟩, fun n inMore => ?_,
        fun n inList small other => ?_⟩
      · exact (fit q h).2.2 (List.mem_append_right _ List.mem_cons_self)
      · obtain rfl | later := List.mem_cons.1 inMore
        · exact ⟨small, other, fresh⟩
        · obtain ⟨small, other, out⟩ := fit n later
          exact ⟨small, other, fun h => out (List.mem_append_left _ h)⟩
      · obtain rfl | later := List.mem_cons.1 inList
        · exact List.mem_append_right _ List.mem_cons_self
        · exact all n later small other

/-! ### On to the queue's head, to the home, or tallied (R127, R145) -/

section
variable {s t : State} {lot i n : Nat} {r : HomeRecord} {e : LotEntry} {d : Departure}

theorem homeOnward_spec (one : s.OneHome lot r) (atHome : r.state = .atHome) (noFrame : r.frame = none)
    (staying : r.handingOver = false) (plan : s.planLot lot = some d) {qs : List Nat} (queue : r.queue = qs) :
    ∃ frame handing o,
      s.homeOnward lot = { s.putHome lot { r with frame := frame, handingOver := handing } with ordinal := o } ∧
      ({ r with frame := frame, handingOver := handing } : HomeRecord).Onward s.minute d qs := by
  cases qs with
  | nil =>
    have onward : s.homeOnward lot = s.testTally (.home lot) := by
      rw [State.homeOnward, one.1]
      dsimp only
      rw [queue]
    rw [onward, testTally_home one atHome queue noFrame plan]
    by_cases late : d.cutOff ≤ s.minute
    · rw [if_pos late]
      refine ⟨some ⟨.tally, 0, s.ordinal⟩, r.handingOver, s.ordinal + 1, by rfl, fun _ _ h => (by cases h),
        fun _ => ⟨staying, fun _ => ⟨_, rfl⟩, fun early => absurd late (Nat.not_le.2 early)⟩⟩
    · rw [if_neg late]
      refine ⟨r.frame, r.handingOver, s.ordinal, by exact (putHome_self one).symm, fun _ _ h => (by cases h),
        fun _ => ⟨staying, fun h => absurd h late, fun _ => noFrame⟩⟩
  | cons head rest =>
    have onward : s.homeOnward lot = s.queue (.home lot) .handover head := by
      rw [State.homeOnward, one.1]
      dsimp only
      rw [queue]
    rw [onward, one.queue, HomeRecord.queued_of_queueable (by rw [noFrame]; rfl)]
    refine ⟨_, _, s.ordinal + 1, by rfl, fun h rest' same => ?_, nofun⟩
    cases same
    exact ⟨Bool.or_true _, _, rfl⟩

theorem onward_congr (station : t.station = s.station) (clock : t.clock = s.clock) (e : LotEntry) (d : Departure)
    (queue : List Nat) : t.Onward e d queue ↔ s.Onward e d queue := by
  rw [State.Onward, State.Onward, station, minute_congr clock]

theorem tallyDue_at (found : s.table[i]? = some e) (named : e.lot = some lot) (holds : e.holds = true)
    (noFrame : e.frame = none) (noQueue : e.queue = []) (plan : s.planLot lot = some d) :
    s.tallyDue (.entry i) = decide (d.cutOff ≤ s.minute) := by
  rw [State.tallyDue, entry_at found, named]
  dsimp only
  rw [holds, pastCutOff_eq plan, noQueue, noFrame]
  simp [queueable]

/-- An entry that owns its lot and offers nothing yet goes on with it. -/
theorem entryOnward_spec (acts : s.Acts) (found : s.table[i]? = some e) (named : e.lot = some lot) (holds : e.holds = true)
    (noFrame : e.frame = none) (staying : e.handingOver = false) (plan : s.planLot lot = some d)
    {qs : List Nat} (queue : e.queue = qs) : ∃ frame handing timer o, s.entryOnward i =
        { s.putEntry i { e with frame := frame, handingOver := handing, publishTimer := timer } with ordinal := o } ∧
      s.Onward { e with frame := frame, handingOver := handing, publishTimer := timer } d qs ∧
      (timer = none ∨ timer = e.publishTimer) ∧
      (qs = [] → s.minute < d.cutOff → s.station = .ready → timer = e.publishTimer) := by
  have queued (kind : FrameKind) (k : Nat) := queue_at found kind k
  have sends (kind : FrameKind) (k : Nat) := LotEntry.queued_of_queueable (e := e) (f := ⟨kind, k, s.ordinal⟩)
    (by rw [noFrame]; rfl)
  cases qs with
  | nil =>
    have due := tallyDue_at found named holds noFrame queue plan
    by_cases late : d.cutOff ≤ s.minute
    · have tallied : s.entryOnward i = s.queue (.entry i) .tally 0 := by
        rw [State.entryOnward, entry_at found, queue]
        dsimp only
        rw [due, decide_eq_true late, if_pos rfl, State.testTally, due, decide_eq_true late, if_pos rfl]
        exact ite_self _
      rw [tallied, queued, sends]
      refine ⟨_, _, none, s.ordinal + 1, by rfl, ⟨fun _ _ h => (by cases h), fun _ _ => ⟨?_, _, rfl⟩,
        fun _ early => absurd late (Nat.not_le.2 early), fun _ early => absurd late (Nat.not_le.2 early)⟩, .inl rfl,
        fun _ early => absurd late (Nat.not_le.2 early)⟩
      exact (Bool.or_false _).trans staying
    · by_cases ready : s.station = .ready
      · have stays : s.entryOnward i = s := by
          rw [State.entryOnward, entry_at found, queue]
          dsimp only
          rw [if_neg (by rw [ready]; decide), State.testTally, due, decide_eq_false late]
          rfl
        rw [stays]
        exact ⟨e.frame, e.handingOver, e.publishTimer, s.ordinal, by exact (putEntry_self found).symm,
          ⟨fun _ _ h => (by cases h), fun _ h => absurd h late, fun _ _ _ => ⟨staying, noFrame⟩,
            fun _ _ other => absurd ready other⟩, .inr rfl, fun _ _ _ => rfl⟩
      · have leaving : s.station = .leaving ∨ s.station = .serving := acts.resolve_left ready
        have handed : s.entryOnward i = s.queue (.entry i) .handover d.home := by
          rw [State.entryOnward, entry_at found, queue]
          dsimp only
          rw [if_pos leaving, due, decide_eq_false late, if_neg Bool.false_ne_true, named]
          dsimp only
          rw [homeOf_eq plan]
        rw [handed, queued, sends]
        exact ⟨_, _, none, s.ordinal + 1, by rfl, ⟨fun _ _ h => (by cases h), fun _ h => absurd h late,
          fun _ _ h => absurd h ready, fun _ _ _ => ⟨Bool.or_true _, _, rfl⟩⟩, .inl rfl, fun _ _ h => absurd h ready⟩
  | cons head rest =>
    have onward : s.entryOnward i = s.queue (.entry i) .handover head := by
      rw [State.entryOnward, entry_at found, queue]
    rw [onward, queued, sends]
    refine ⟨_, _, none, s.ordinal + 1, by rfl, ⟨fun h rest' same => ?_, nofun, nofun, nofun⟩, .inl rfl, nofun⟩
    cases same
    exact ⟨Bool.or_true _, _, rfl⟩

end

end Sys2Proof.Machine

end

section
/-! An entry that has just taken its lot: its waiting requests, then the lot's next owner (R111, R127, R145). -/

namespace Sys2Proof.Machine

section
variable {s t w : State} {lot i n : Nat} {e h : LotEntry} {d : Departure} {f : Figures} {mark : Bool} {queue : List Nat}

theorem owned_at (found : s.table[i]? = some e) (named : e.lot = some lot) (holds : e.holds = true)
    (figures : e.figures = some f) : s.owned (.entry i) = some (lot, f, e.reclaimed) := by
  rw [State.owned, entry_at found, named]
  dsimp only
  rw [if_pos holds, figures]
  rfl

theorem setWaiting_at (found : s.table[i]? = some e) (ws : List Request) :
    s.setWaiting (.entry i) ws = s.putEntry i { e with waiting := ws } := updateEntry_at found _

/-- The requests waiting on an entry that owns its lot (R111). -/
theorem debitWaiting_entry (found : s.table[i]? = some e) (named : e.lot = some lot) (holds : e.holds = true)
    (figures : e.figures = some f) (plan : s.planLot lot = some d) (arrives : s.MayArrive d f e.waiting n) :
    s.Served (s.debitWaiting (.entry i)) d e.reclaimed (s.arrival d f e.waiting).1 (s.arrival d f e.waiting).2.1 n ∧
    ∃ state timer a b o, LotsStay { s.putEntry i { e with
        state := state, figures := some (s.arrival d f e.waiting).2.2, publishTimer := timer, lastUse := a, lastDebit := b
        waiting := [] } with ordinal := o } (s.debitWaiting (.entry i)) ∧
      (((s.arrival d f e.waiting).1 = [] ∧ state = e.state ∧ timer = e.publishTimer) ∨
        ((s.arrival d f e.waiting).1 ≠ [] ∧ state = .ownedModified ∧
          timer = some (e.publishTimer.getD (seconds s.config.publishDelay)))) := by
  have now := at_putEntry found { e with waiting := [] }
  have kept := setWaiting_at found []
  have left : (s.arrival d f e.waiting).2.2 = lessenAll f (s.arrival d f e.waiting).1 := by
    rw [State.arrival]
    split
    · exact serve_left _ _
    · rfl
  have spec := debitWaiting_spec (s := s) (ref := .entry i) (lot := lot) (f := f) (mark := e.reclaimed) (d := d) (n := n)
    (by rw [kept]; exact owned_at (e := { e with waiting := [] }) now named holds figures) (by rw [kept]; exact plan)
    (by rw [kept, waitingAt_at found]; exact arrives)
  rw [kept, waitingAt_at found] at spec
  obtain ⟨served, stay⟩ := spec
  refine ⟨served, ?_⟩
  rw [left]
  replace stay : LotsStay ((s.putEntry i { e with waiting := [] }).takeAll (.entry i) (s.arrival d f e.waiting).1)
    (s.debitWaiting (.entry i)) := stay
  generalize (s.arrival d f e.waiting).1 = out at stay
  cases out with
  | nil =>
    refine ⟨e.state, e.publishTimer, e.lastUse, e.lastDebit, s.ordinal, ?_, .inl ⟨rfl, rfl, rfl⟩⟩
    rw [show lessenAll f [] = f from rfl, ← figures]
    exact stay
  | cons q qs =>
    obtain ⟨o, a, b, taken⟩ := takeAll_entry now q qs
    rw [taken, putEntry_putEntry] at stay
    refine ⟨_, _, a, b, o, ?_, .inr ⟨List.cons_ne_nil _ _, rfl, rfl⟩⟩
    have same : e.figures.getD .zero = f := by rw [figures]; rfl
    rw [← same]
    exact stay

theorem settleLeaving_holds (found : s.table[i]? = some e) (holds : e.holds = true) : s.settleLeaving = s := by
  rw [settleLeaving_eq, settled_of_holds s (List.mem_of_getElem? found) ((holds_iff e).1 holds)]

/-- An entry that has just become owner, nothing done yet with the lot (R127). -/
structure LotEntry.JustOwner (h : LotEntry) (lot : Nat) (f : Figures) (mark : Bool) (queue : List Nat) : Prop where
  named : h.lot = some lot
  state : h.state = .owned
  figures : h.figures = some f
  marked : h.reclaimed = mark
  queue : h.queue = queue
  castout : h.castout = false
  attempts : h.attempts = 0
  fetchTimer : h.fetchTimer = none
  reachable : h.unreachable = none
  frame : h.frame = none
  staying : h.handingOver = false
  publishTimer : h.publishTimer = none

theorem LotEntry.JustOwner.holds (own : h.JustOwner lot f mark queue) : h.holds = true :=
  (holds_iff h).2 (.inl own.state)

/-- What an entry that has taken its lot and served its requests holds. -/
def State.OwnerLeft (s : State) (e' : LotEntry) (lot : Nat) (mark : Bool) (queue : List Nat) (d : Departure)
    (left : Figures) : Prop :=
  e'.lot = some lot ∧ (e'.state = .owned ∨ e'.state = .ownedModified) ∧ e'.figures = some left ∧ e'.reclaimed = mark ∧
  e'.queue = queue ∧ e'.castout = false ∧ e'.attempts = 0 ∧ e'.fetchTimer = none ∧ e'.unreachable = none ∧
  e'.waiting = [] ∧ s.Onward e' d queue

theorem ownerLeft_congr {e' : LotEntry} (station : t.station = s.station) (clock : t.clock = s.clock)
    (left : t.OwnerLeft e' lot mark queue d f) : s.OwnerLeft e' lot mark queue d f := by
  obtain ⟨l1, l2, l3, l4, l5, l6, l7, l8, l9, l10, onward⟩ := left
  exact ⟨l1, l2, l3, l4, l5, l6, l7, l8, l9, l10, (onward_congr station clock _ _ _).1 onward⟩

/-- The onward step after the requests, in the state `t` that they leave. -/
theorem onward_after (own : h.JustOwner lot f mark queue) (acts : t.Acts) (plan : t.planLot lot = some d)
    {state : EntryState} {timer : Timer} {a b : Nat} {left : Figures} (owner : state = .owned ∨ state = .ownedModified)
    (found : t.table[i]? = some { h with
      state := state, figures := some left, publishTimer := timer, lastUse := a, lastDebit := b, waiting := [] }) :
    ∃ e' o, (t.entryOnward i).settleLeaving = { t.putEntry i e' with ordinal := o } ∧
      t.OwnerLeft e' lot mark queue d left ∧ e'.state = state ∧ e'.incoming = h.incoming ∧ e'.lastUse = a ∧
      e'.lastDebit = b ∧ (e'.publishTimer = none ∨ e'.publishTimer = timer) ∧
      (queue = [] → t.minute < d.cutOff → t.station = .ready → e'.publishTimer = timer) := by
  have holds : ({ h with state := state, figures := some left, publishTimer := timer, lastUse := a, lastDebit := b, waiting := [] } :
      LotEntry).holds = true := (holds_iff _).2 owner
  obtain ⟨frame, handing, timer', o, onward, goes, timers, keeps⟩ := entryOnward_spec acts found own.named holds own.frame
    own.staying plan own.queue
  refine ⟨{ h with
    state := state, figures := some left, publishTimer := timer', lastUse := a, lastDebit := b, waiting := [], frame := frame
    handingOver := handing }, o, ?_, ⟨own.named, owner, rfl, own.marked, own.queue, own.castout, own.attempts, own.fetchTimer, own.reachable,
    rfl, goes⟩, rfl, rfl, rfl, rfl, timers, keeps⟩
  rw [onward]
  exact settleLeaving_holds (s := { t.putEntry i _ with ordinal := o }) (at_putEntry found _) holds

/-- With nothing waiting. -/
theorem arrives_nothing (own : h.JustOwner lot f mark queue) (acts : w.Acts) (found : w.table[i]? = some h)
    (plan : w.planLot lot = some d) (waitless : h.waiting = []) : ∃ e' o,
      ((w.debitWaiting (.entry i)).entryOnward i).settleLeaving = { w.putEntry i e' with ordinal := o } ∧
      w.OwnerLeft e' lot mark queue d f ∧ e'.state = .owned ∧ e'.publishTimer = none ∧ e'.incoming = h.incoming ∧
      e'.lastUse = h.lastUse ∧ e'.lastDebit = h.lastDebit := by
  have same : w.debitWaiting (.entry i) = w := by
    rw [debitWaiting_nothing ((waitingAt_at found).trans waitless), setWaiting_at found, ← waitless]
    exact putEntry_self found
  have now : w.table[i]? = some { h with
      state := .owned, figures := some f, publishTimer := none, lastUse := h.lastUse, lastDebit := h.lastDebit
      waiting := [] } := by
    rw [found, ← own.state, ← own.figures, ← own.publishTimer, ← waitless]
  obtain ⟨e', o, ends, left, state, incoming, lastUse, lastDebit, timer, -⟩ := onward_after own acts plan (.inl rfl) now
  rw [same]
  exact ⟨e', o, ends, left, state, timer.elim id id, incoming, lastUse, lastDebit⟩

/-- With requests that are served or set aside for good. -/
theorem arrives_served (own : h.JustOwner lot f mark queue) (ready : w.station = .ready) (found : w.table[i]? = some h)
    (plan : w.planLot lot = some d) (arrives : w.MayArrive d f h.waiting n) : ∃ u e',
      ((w.debitWaiting (.entry i)).entryOnward i).settleLeaving = u ∧ u.table = w.table.set i e' ∧ u.home = w.home ∧
      u.line = w.line ∧ w.Served u d mark (w.arrival d f h.waiting).1 (w.arrival d f h.waiting).2.1 n ∧
      u.station = w.station ∧ w.OwnerLeft e' lot mark queue d (w.arrival d f h.waiting).2.2 ∧ e'.incoming = h.incoming ∧
      (e'.state = .ownedModified ↔ (w.arrival d f h.waiting).1 ≠ []) ∧
      ((w.arrival d f h.waiting).1 ≠ [] → queue = [] → e'.publishTimer = some (w.config.publishDelay * 1000)) := by
  obtain ⟨served, state, timer, a, b, o, stay, taken⟩ := debitWaiting_entry found own.named own.holds own.figures plan arrives
  rw [own.marked] at served
  have step := LotStep.debitWaiting w (.entry i)
  generalize w.debitWaiting (.entry i) = v at *
  have owner : state = .owned ∨ state = .ownedModified :=
    taken.imp (fun ⟨_, same, _⟩ => same.trans own.state) fun ⟨_, same, _⟩ => same
  have now := (congrArg (·[i]?) stay.table).trans (at_putEntry found _)
  obtain ⟨e', o', ends, left, kept, incoming, -, -, -, keeps⟩ := onward_after own (.inl (step.station.trans ready))
    ((planLot_congr step.store lot).trans plan) owner now
  refine ⟨_, e', ends, ?_, stay.home, stay.line, served, step.station, ?_, incoming, ?_, fun some' noQueue => ?_⟩
  · exact (congrArg (List.set · i e') stay.table).trans (List.set_set ..)
  · exact ownerLeft_congr step.station step.clock left
  · rw [kept]
    obtain ⟨nobody, same, -⟩ | ⟨somebody, same, -⟩ := taken
    · rw [same, own.state]
      exact ⟨nofun, fun h => absurd nobody h⟩
    · exact ⟨fun _ => somebody, fun _ => same⟩
  · obtain ⟨nobody, -⟩ | ⟨-, -, running⟩ := taken
    · exact absurd nobody some'
    · have early : w.minute < d.cutOff := by
        by_contra late
        rw [State.arrival, if_neg late] at some'
        exact some' rfl
      rw [keeps noQueue (by rw [minute_congr step.clock]; exact early) (step.station.trans ready), running, own.publishTimer]
      rfl

/-- The entry once its waiting list is taken. -/
theorem LotEntry.JustOwner.emptied (own : h.JustOwner lot f mark queue) : { h with waiting := [] } = { h with
    state := .owned, figures := some f, publishTimer := none, lastUse := h.lastUse, lastDebit := h.lastDebit
    waiting := [] } := by
  rw [← own.state, ← own.figures, ← own.publishTimer]

/-- With one request that fits, and no number left for it (R87, R167). -/
theorem arrives_unnumbered {q : Request} (own : h.JustOwner lot f mark queue) (ready : w.station = .ready)
    (found : w.table[i]? = some h) (plan : w.planLot lot = some d) (only : h.waiting = [q]) (may : w.MayServe [q])
    (early : w.minute < d.cutOff) (room : FitsIn q.figures f) (counter : w.sequence = some n)
    (short : 100000 < n + q.members.length) : ∃ u e', ((w.debitWaiting (.entry i)).entryOnward i).settleLeaving = u ∧
      w.AllRefused u [q] .noNumber [.noNumber] ∧ u.table = w.table.set i e' ∧ u.home = w.home ∧ u.line = w.line ∧
      u.station = w.station ∧ w.OwnerLeft e' lot mark queue d f ∧ e'.state = .owned ∧ e'.publishTimer = none ∧
      e'.incoming = h.incoming := by
  have kept := setWaiting_at found []
  have owned := owned_at (e := { h with waiting := [] }) (at_putEntry found _) own.named own.holds own.figures
  have debited := debitWaiting_unnumbered (s := w) (ref := .entry i) (q := q) (lot := lot) (f := f) (mark := h.reclaimed)
    (d := d) (n := n) ((waitingAt_at found).trans only) (by rw [kept]; exact owned) (by rw [kept]; exact plan)
    (by rw [kept]; exact early) room (by rw [kept]; exact counter) short
  rw [kept] at debited
  have all : (w.putEntry i { h with waiting := [] }).AllSeeking q.members := ⟨may.head.nodup, may.head.seeking⟩
  obtain ⟨refused, stay⟩ := refuseNoNumber_spec all
  have step := LotStep.refuseNoNumber (w.putEntry i { h with waiting := [] }) q
  rw [← debited] at refused stay step
  generalize w.debitWaiting (.entry i) = v at *
  have now := (congrArg (·[i]?) stay.table).trans (at_putEntry found _)
  rw [own.emptied] at now
  obtain ⟨e', o', ends, left, state, incoming, -, -, timer, -⟩ := onward_after own (.inl (step.station.trans ready))
    ((planLot_congr step.store lot).trans plan) (.inl rfl) now
  refine ⟨_, e', ends, (allRefused_single _ _ _ _ _).2 refused, ?_, stay.home, stay.line, step.station,
    ownerLeft_congr step.station step.clock left, state, timer.elim id id, incoming⟩
  exact (congrArg (List.set · i e') stay.table).trans (List.set_set ..)

/-- With one request that is set aside and moves on, the entry itself out of its way. -/
theorem arrives_aside {q : Request} (own : h.JustOwner lot f mark queue) (ready : w.station = .ready)
    (found : w.table[i]? = some h) (plan : w.planLot lot = some d) (only : h.waiting = [q]) (may : w.MayServe [q])
    (unserved : d.cutOff ≤ w.minute ∨ ¬ FitsIn q.figures f) (noIncoming : h.incoming = none)
    (apart : ∀ c ∈ q.candidates.drop (q.next + 1), c.lot ≠ lot ∧ (queue ≠ [] ∨ w.homeOf c.lot = w.own)) : ∃ v e' o,
      ((w.debitWaiting (.entry i)).entryOnward i).settleLeaving = { v.putEntry i e' with ordinal := o } ∧
      (w.putEntry i { h with waiting := [] }).MovesOn v q ∧ v.line = w.line ∧ v.station = w.station ∧
      w.OwnerLeft e' lot mark queue d f ∧ e'.state = .owned ∧ e'.publishTimer = none ∧ e'.incoming = none := by
  have kept := setWaiting_at found []
  have owned := owned_at (e := { h with waiting := [] }) (at_putEntry found _) own.named own.holds own.figures
  have debited := debitWaiting_aside (s := w) (ref := .entry i) (q := q) (lot := lot) (f := f) (mark := h.reclaimed)
    (d := d) ((waitingAt_at found).trans only) (by rw [kept]; exact owned) (by rw [kept]; exact plan)
    (by rw [kept]; exact unserved)
  rw [kept] at debited
  have step := LotStep.moveOn (w.putEntry i { h with waiting := [] }) q
  have now := held_moveOn (q := q) (at_putEntry found { h with waiting := [] }) own.holds noIncoming fun c inList => by
    obtain ⟨other, away⟩ := apart c inList
    refine ⟨?_, away.imp_left fun some' => by rw [← own.queue] at some'; exact some'⟩
    show h.lot ≠ some c.lot
    rw [own.named]
    exact fun same => other (Option.some.inj same).symm
  have moves : (w.putEntry i { h with waiting := [] }).MovesOn ((w.putEntry i { h with waiting := [] }).moveOn q) q :=
    movesOn_moveOn may rfl
  rw [← debited] at step now moves
  generalize w.debitWaiting (.entry i) = v at *
  rw [own.emptied] at now
  obtain ⟨e', o', ends, left, state, incoming, -, -, timer, -⟩ := onward_after own (.inl (step.station.trans ready))
    ((planLot_congr step.store lot).trans plan) (.inl rfl) now
  exact ⟨v, e', o', ends, moves, step.line, step.station, ownerLeft_congr step.station step.clock left, state,
    timer.elim id id, incoming.trans noIncoming⟩

end

end Sys2Proof.Machine

end

section
/-! Settles O55: the recipient of an accepted HANDOVER takes its lot (R111, R127, R128, R145, R153, R187). -/

namespace Sys2Proof.Machine

section
variable {s : State} {lot i j n : Nat} {r : HomeRecord} {e x : LotEntry} {d : Departure} {f : Figures} {mark : Bool}
  {queue : List Nat} {ws : List Request}

/-- The home record as it takes its lot (R127). -/
def HomeRecord.owning (r : HomeRecord) (f : Figures) (mark : Bool) (queue : List Nat) : HomeRecord :=
  { r with
    state := .atHome, figures := f, lastSeen := none, reclaimed := mark, queue := queue, handingOver := false, attempts := 0
    fetchTimer := none, frame := none }

/-- The entry as it takes its lot (R127). -/
def LotEntry.owning (e : LotEntry) (lot : Nat) (f : Figures) (mark : Bool) (queue : List Nat) (ordinal : Nat) : LotEntry :=
  { LotEntry.cleared with
    lot := some lot, state := .owned, figures := some f, reclaimed := mark, queue := queue, waiting := e.waiting
    incoming := e.incoming, lastUse := ordinal, lastDebit := ordinal }

theorem justOwner_owning (e : LotEntry) (lot : Nat) (f : Figures) (mark : Bool) (queue : List Nat) (o : Nat) :
    (e.owning lot f mark queue o).JustOwner lot f mark queue := ⟨rfl, rfl, rfl, rfl, rfl, rfl, rfl, rfl, rfl, rfl, rfl, rfl⟩

theorem entryTakes_at (found : s.table[i]? = some e) (lot : Nat) (f : Figures) (mark : Bool) (queue : List Nat) :
    s.entryTakes i lot f mark queue = (s.putEntry i (e.owning lot f mark queue s.ordinal)).nextOrdinal :=
  congrArg State.nextOrdinal (updateEntry_at found _)

/-- An entry made for the lot and then taken as its owner. -/
theorem makeEntry_takes (found : s.table[i]? = some e) (lot : Nat) (f : Figures) (mark : Bool) (queue : List Nat)
    (ws : List Request) : (s.makeEntry i lot .asking ws).entryTakes i lot f mark queue =
      { s.putEntry i ({ LotEntry.cleared with waiting := ws }.owning lot f mark queue (s.ordinal + 1)) with
        ordinal := s.ordinal + 2 } := by
  have made : s.makeEntry i lot .asking ws = (s.putEntry i { LotEntry.cleared with
      lot := some lot, state := .asking, lastUse := s.ordinal, lastDebit := e.lastDebit, waiting := ws }).nextOrdinal :=
    congrArg State.nextOrdinal (updateEntry_at found _)
  rw [made]
  refine (entryTakes_at (s := (s.putEntry i _).nextOrdinal) (at_putEntry found _) lot f mark queue).trans ?_
  exact congrArg (fun x : State => { x with ordinal := s.ordinal + 2 }) (putEntry_putEntry s i _ _)

theorem takeIncoming_none (none : s.incomingOf lot = none) : s.takeIncoming lot = (s, []) := by
  rw [State.takeIncoming, none]

theorem takeIncoming_some {c : Incoming} (coming : s.incomingOf lot = some j) (found : s.table[j]? = some x)
    (incoming : x.incoming = some c) : s.takeIncoming lot = (s.putEntry j { x with incoming := none }, c.waiting) := by
  rw [State.takeIncoming, coming]
  dsimp only
  rw [updateEntry_at found, entry_at found, incoming]

theorem handoverReceived_home (here : s.homeOf lot = s.own) (one : s.OneHome lot r)
    (away : r.state = .away ∨ r.state = .unknown ∨ r.state = .askingHome) (f : Figures) (mark : Bool) (queue : List Nat) :
    s.handoverReceived lot f mark queue =
      ((s.putHome lot (r.owning f mark queue)).debitWaiting (.home lot)).homeOnward lot := by
  have home : s.homeReceives lot f mark queue =
      ((s.putHome lot (r.owning f mark queue)).debitWaiting (.home lot)).homeOnward lot :=
    congrArg (fun x : State => (x.debitWaiting (.home lot)).homeOnward lot) (one.update _)
  rw [State.handoverReceived, if_pos here, one.1]
  dsimp only
  obtain state | state | state := away <;> rw [state] <;> exact home

theorem handoverReceived_entry (foreign : s.homeOf lot ≠ s.own) (one : s.OneEntry lot i e) (free : ¬ e.holds = true)
    (f : Figures) (mark : Bool) (queue : List Nat) : s.handoverReceived lot f mark queue =
      (((s.putEntry i (e.owning lot f mark queue s.ordinal)).nextOrdinal).debitWaiting (.entry i)).entryOnward i := by
  rw [State.handoverReceived, if_neg foreign, one.2.1]
  dsimp only
  rw [entry_at one.2.2, if_neg free, State.entryReceives, entryTakes_at one.2.2]

theorem handoverReceived_unnamed (foreign : s.homeOf lot ≠ s.own) (unnamed : s.entryOf lot = none) (f : Figures)
    (mark : Bool) (queue : List Nat) : s.handoverReceived lot f mark queue = s.receiveUnnamed lot f mark queue := by
  rw [State.handoverReceived, if_neg foreign, unnamed]

theorem onHandover_received {b : HandoverBody} (plan : s.planLot b.lot = some d) (recipient : b.recipient = s.own)
    {sender : Nat} (other : sender ≠ s.own) : s.onHandover sender b false =
      s.handoverReceived b.lot (b.figures.upTo d.capacity) (b.reclaimed != 0) (carriedQueue s.own [] b.queue) := by
  rw [State.onHandover, plan]
  dsimp only
  rw [if_neg Bool.false_ne_true, if_pos ⟨recipient, fun same => other (same.symm.trans recipient)⟩, recipient]

/-- What a home record that has taken its lot and served its requests holds. -/
def HomeRecord.OwnerLeft (r' : HomeRecord) (lot : Nat) (left : Figures) (mark : Bool) (queue : List Nat) (minute : Nat)
    (d : Departure) : Prop :=
  r'.lot = lot ∧ r'.state = .atHome ∧ r'.figures = left ∧ r'.lastSeen = none ∧ r'.reclaimed = mark ∧ r'.queue = queue ∧
  r'.attempts = 0 ∧ r'.fetchTimer = none ∧ r'.waiting = [] ∧ r'.Onward minute d queue

/-- The onward step after the requests, in the state `s` that they leave. -/
theorem homeOnward_after {left : Figures}
    (one : s.OneHome lot { r.owning f mark queue with figures := left, waiting := [] }) (plan : s.planLot lot = some d) :
    ∃ r' o, (s.homeOnward lot).settleLeaving =
        { s.putHome lot r' with ordinal := o, station := s.settled s.table } ∧
      r'.OwnerLeft lot left mark queue s.minute d := by
  obtain ⟨frame, handing, o, onward, goes⟩ := homeOnward_spec one rfl rfl rfl plan rfl
  refine ⟨{ r.owning f mark queue with figures := left, waiting := [], frame := frame, handingOver := handing }, o, ?_,
    one.lot_eq, rfl, rfl, rfl, rfl, rfl, rfl, rfl, rfl, goes⟩
  rw [onward]
  exact settleLeaving_eq _

/-- The return of a lot from an entry taken for it alone (R128, R145). -/
theorem returnLot_spec (own : e.JustOwner lot f mark queue) (acts : s.Acts) (found : s.table[i]? = some e)
    (plan : s.planLot lot = some d) : ∃ e' o, (s.returnLot i lot).settleLeaving = { s.putEntry i e' with ordinal := o } ∧
      (e'.state = .owned ∧ e'.publishTimer = none ∧ e'.incoming = e.incoming) ∧ e'.lot = some lot ∧ e'.figures = some f ∧
      e'.reclaimed = mark ∧ e'.queue = queue ∧ e'.waiting = e.waiting ∧
      (s.station = .ready → e'.handingOver = true ∧ e'.castout = true ∧ ∃ q, e'.frame = some ⟨.handover, d.home, q⟩) ∧
      (s.station ≠ .ready → s.Onward e' d queue) := by
  have queued : s.queue (.entry i) .handover d.home = (s.putEntry i { e with
      frame := some ⟨.handover, d.home, s.ordinal⟩, handingOver := true, publishTimer := none }).nextOrdinal := by
    rw [queue_at found, LotEntry.queued_of_queueable (by rw [own.frame]; rfl), own.staying]
    rfl
  have due (noQueue : e.queue = []) := tallyDue_at found own.named own.holds own.frame noQueue plan
  rw [State.returnLot, entry_at found]
  by_cases onward : (s.station = .leaving ∨ s.station = .serving) ∧ (!e.queue.isEmpty || s.tallyDue (.entry i)) = true
  · rw [if_pos onward]
    obtain ⟨frame, handing, timer, o, goes, next, timers, -⟩ := entryOnward_spec acts found own.named own.holds own.frame
      own.staying plan own.queue
    refine ⟨{ e with frame := frame, handingOver := handing, publishTimer := timer }, o, ?_, ⟨own.state,
      timers.elim id fun same => same.trans own.publishTimer, rfl⟩, own.named, own.figures, own.marked, own.queue, rfl,
      fun ready => ?_, fun _ => next⟩
    · rw [goes]
      exact settleLeaving_holds (s := { s.putEntry i _ with ordinal := o }) (at_putEntry found _) own.holds
    · obtain ⟨leaving, -⟩ := onward
      rw [ready] at leaving
      exact absurd leaving (by decide)
  · rw [if_neg onward, homeOf_eq plan, queued, updateEntry_at (s := (s.putEntry i _).nextOrdinal) (at_putEntry found _)]
    refine ⟨{ e with
      frame := some ⟨.handover, d.home, s.ordinal⟩, handingOver := true, publishTimer := none, castout := true },
      s.ordinal + 1, ?_, ⟨own.state, rfl, rfl⟩, own.named, own.figures, own.marked, own.queue, rfl,
      fun _ => ⟨rfl, rfl, _, rfl⟩, fun other => ?_⟩
    · refine (settleLeaving_holds (e := { e with
        frame := some ⟨.handover, d.home, s.ordinal⟩, handingOver := true, publishTimer := none, castout := true })
        (at_putEntry (s := (s.putEntry i _).nextOrdinal) (at_putEntry found _) _) own.holds).trans ?_
      exact congrArg State.nextOrdinal (putEntry_putEntry s i _ _)
    · have leaving := acts.resolve_left other
      have quiet := not_and.1 onward leaving
      rw [Bool.or_eq_true, not_or] at quiet
      have noQueue : e.queue = [] := by simpa using quiet.1
      have early := quiet.2
      rw [due noQueue, decide_eq_true_iff] at early
      refine ⟨fun h rest same => ?_, fun _ late => absurd late early, fun _ _ ready => absurd ready other,
        fun _ _ _ => ⟨rfl, _, rfl⟩⟩
      rw [← own.queue, noQueue] at same
      cases same

/-! ### The home record -/

/-- The station while its home record takes the lot. -/
def State.takesHome (s : State) (lot : Nat) (r : HomeRecord) (f : Figures) (mark : Bool) (queue : List Nat) : State :=
  (((s.putHome lot (r.owning f mark queue)).debitWaiting (.home lot)).homeOnward lot).settleLeaving

section
variable (one : s.OneHome lot r) (plan : s.planLot lot = some d) (f : Figures) (mark : Bool) (queue : List Nat)
include one

theorem owner_putHome : (s.putHome lot (r.owning f mark queue)).OneHome lot (r.owning f mark queue) := one.put one.lot_eq

theorem owner_emptied : (s.putHome lot (r.owning f mark queue)).setWaiting (.home lot) [] =
    s.putHome lot { r.owning f mark queue with waiting := [] } :=
  (setWaiting_home (owner_putHome one f mark queue) []).trans (putHome_putHome _ (r := r.owning f mark queue) one.lot_eq _)

theorem owner_left (left : Figures) : (s.putHome lot { r.owning f mark queue with figures := left, waiting := [] }).OneHome lot
    { r.owning f mark queue with figures := left, waiting := [] } := one.put one.lot_eq

omit one in
/-- The end of the event, from the state `v` that the requests leave. -/
theorem takesHome_after {v : State} {left : Figures} (plan : s.planLot lot = some d)
    (debited : (s.putHome lot (r.owning f mark queue)).debitWaiting (.home lot) = v)
    (home : v.OneHome lot { r.owning f mark queue with figures := left, waiting := [] })
    (store : v.store = s.store) (clock : v.clock = s.clock) (station : v.station = s.station) (table : v.table = s.table) :
    ∃ r' o, s.takesHome lot r f mark queue = { v.putHome lot r' with ordinal := o, station := s.settled s.table } ∧
      r'.OwnerLeft lot left mark queue s.minute d := by
  obtain ⟨r', o, ends, held⟩ := homeOnward_after home ((planLot_congr store lot).trans plan)
  rw [minute_congr clock] at held
  rw [settled_congr station, table] at ends
  refine ⟨r', o, ?_, held⟩
  rw [State.takesHome, debited]
  exact ends

/-- What the map of the home store comes to when the requests leave the other records. -/
theorem home_twice {v : State} {left : Figures} (r' : HomeRecord)
    (home : v.home = (s.putHome lot { r.owning f mark queue with figures := left, waiting := [] }).home) :
    (v.putHome lot r').home = s.home.map (fun x => if x.lot = lot then r' else x) :=
  (congrArg (List.map _) home).trans (congrArg State.home (putHome_putHome s
    (r := { r.owning f mark queue with figures := left, waiting := [] }) one.lot_eq r'))

include plan

theorem takesHome_nothing (waitless : r.waiting = []) : ∃ u r', s.takesHome lot r f mark queue = u ∧
    u.home = s.home.map (fun x => if x.lot = lot then r' else x) ∧ u.table = s.table ∧ u.line = s.line ∧
    ({ s with station := s.settled s.table } : State).SameOutsideLots u ∧ r'.OwnerLeft lot f mark queue s.minute d := by
  have owner := owner_putHome one f mark queue
  obtain ⟨r', o, ends, held⟩ := takesHome_after f mark queue plan
    ((debitWaiting_nothing (owner.waitingAt.trans waitless)).trans (owner_emptied one f mark queue))
    (owner_left one f mark queue f) rfl rfl rfl rfl
  exact ⟨_, r', ends, home_twice (left := f) one f mark queue r' rfl, rfl, rfl,
    ⟨rfl, rfl, rfl, rfl, rfl, rfl, rfl, rfl, rfl, rfl, rfl, rfl⟩, held⟩

theorem takesHome_served (arrives : s.MayArrive d f r.waiting n) : ∃ u r', s.takesHome lot r f mark queue = u ∧
    u.home = s.home.map (fun x => if x.lot = lot then r' else x) ∧ u.table = s.table ∧ u.line = s.line ∧
    s.Served u d mark (s.arrival d f r.waiting).1 (s.arrival d f r.waiting).2.1 n ∧ u.station = s.settled s.table ∧
    r'.OwnerLeft lot (s.arrival d f r.waiting).2.2 mark queue s.minute d := by
  obtain ⟨served, stay⟩ := debitWaiting_home (owner_putHome one f mark queue) rfl plan arrives
  have step := LotStep.debitWaiting (s.putHome lot (r.owning f mark queue)) (.home lot)
  have home := stay.home.trans (congrArg State.home (putHome_putHome s (r := r.owning f mark queue) one.lot_eq _))
  obtain ⟨r', o, ends, held⟩ := takesHome_after f mark queue plan rfl
    (oneHome_congr home (owner_left one f mark queue (s.arrival d f r.waiting).2.2)) step.store step.clock step.station
    stay.table
  exact ⟨_, r', ends, home_twice one f mark queue r' home, stay.table, stay.line, served, rfl, held⟩

theorem takesHome_unnumbered {q : Request} (only : r.waiting = [q]) (may : s.MayServe [q]) (early : s.minute < d.cutOff)
    (room : FitsIn q.figures f) (counter : s.sequence = some n) (short : 100000 < n + q.members.length) :
    ∃ u r', s.takesHome lot r f mark queue = u ∧ s.AllRefused u [q] .noNumber [.noNumber] ∧
      u.home = s.home.map (fun x => if x.lot = lot then r' else x) ∧ u.table = s.table ∧ u.line = s.line ∧
      u.station = s.settled s.table ∧ r'.OwnerLeft lot f mark queue s.minute d := by
  have owner := owner_putHome one f mark queue
  have emptied := owner_emptied one f mark queue
  have debited := debitWaiting_unnumbered (q := q) (lot := lot) (f := f) (mark := mark) (d := d) (n := n)
    (owner.waitingAt.trans only) (by rw [emptied]; exact owned_atHome (owner_left one f mark queue f) rfl)
    (by rw [emptied]; exact plan) (by rw [emptied]; exact early) room (by rw [emptied]; exact counter) short
  rw [emptied] at debited
  obtain ⟨refused, stay⟩ := refuseNoNumber_spec (q := q)
    (s := s.putHome lot { r.owning f mark queue with waiting := [] }) ⟨may.head.nodup, may.head.seeking⟩
  have step := LotStep.refuseNoNumber (s.putHome lot { r.owning f mark queue with waiting := [] }) q
  obtain ⟨r', o, ends, held⟩ := takesHome_after f mark queue plan debited
    (oneHome_congr stay.home (owner_left one f mark queue f)) step.store step.clock step.station stay.table
  exact ⟨_, r', ends, (allRefused_single _ _ _ _ _).2 refused, home_twice (left := f) one f mark queue r' stay.home,
    stay.table, stay.line, rfl, held⟩

theorem takesHome_aside {q : Request} (ready : s.station = .ready) (only : r.waiting = [q]) (may : s.MayServe [q])
    (unserved : d.cutOff ≤ s.minute ∨ ¬ FitsIn q.figures f) (apart : ∀ c ∈ q.candidates.drop (q.next + 1), c.lot ≠ lot) :
    ∃ v r' o, s.takesHome lot r f mark queue = { v.putHome lot r' with ordinal := o, station := s.station } ∧
      (s.putHome lot { r.owning f mark queue with waiting := [] }).MovesOn v q ∧ v.line = s.line ∧
      r'.OwnerLeft lot f mark queue s.minute d := by
  have owner := owner_putHome one f mark queue
  have emptied := owner_emptied one f mark queue
  have debited := debitWaiting_aside (q := q) (lot := lot) (f := f) (mark := mark) (d := d)
    (owner.waitingAt.trans only) (by rw [emptied]; exact owned_atHome (owner_left one f mark queue f) rfl)
    (by rw [emptied]; exact plan) (by rw [emptied]; exact unserved)
  rw [emptied] at debited
  have step := LotStep.moveOn (s.putHome lot { r.owning f mark queue with waiting := [] }) q
  have moves : (s.putHome lot { r.owning f mark queue with waiting := [] }).MovesOn
      ((s.putHome lot { r.owning f mark queue with waiting := [] }).moveOn q) q := movesOn_moveOn may rfl
  have kept : State.OneHome ((s.putHome lot { r.owning f mark queue with waiting := [] }).moveOn q) lot
      { r.owning f mark queue with figures := f, waiting := [] } :=
    oneHome_moveOn (owner_left one f mark queue f) apart
  generalize (s.putHome lot { r.owning f mark queue with waiting := [] }).moveOn q = v at *
  obtain ⟨r', o, ends, held⟩ := homeOnward_after kept ((planLot_congr step.store lot).trans plan)
  have stays : v.settled v.table = s.station := (settled_congr (table := v.table) step.station).trans
    (if_neg fun h => absurd ((show s.station = .leaving from h.1).symm.trans ready) (by decide))
  rw [minute_congr step.clock] at held
  rw [stays] at ends
  refine ⟨v, r', o, ?_, moves, step.line, held⟩
  rw [State.takesHome, debited]
  exact ends

end

/-! ### An entry that names the lot -/

/-- The station while its entry takes the lot. -/
def State.takesEntry (s : State) (i : Nat) (e : LotEntry) (lot : Nat) (f : Figures) (mark : Bool) (queue : List Nat) : State :=
  ((((s.putEntry i (e.owning lot f mark queue s.ordinal)).nextOrdinal).debitWaiting (.entry i)).entryOnward i).settleLeaving

section
variable (found : s.table[i]? = some e) (plan : s.planLot lot = some d) (f : Figures) (mark : Bool) (queue : List Nat)
include found plan

theorem takesEntry_nothing (acts : s.Acts) (waitless : e.waiting = []) : ∃ u e', s.takesEntry i e lot f mark queue = u ∧
    u.table = s.table.set i e' ∧ u.home = s.home ∧ u.line = s.line ∧ s.SameOutsideLots u ∧
    s.OwnerLeft e' lot mark queue d f ∧ e'.state = .owned ∧ e'.publishTimer = none ∧ e'.lastUse = s.ordinal ∧
    e'.lastDebit = s.ordinal ∧ e'.incoming = e.incoming := by
  obtain ⟨e', o, ends, left, state, timer, incoming, lastUse, lastDebit⟩ := arrives_nothing
    (w := (s.putEntry i (e.owning lot f mark queue s.ordinal)).nextOrdinal) (justOwner_owning e lot f mark queue s.ordinal)
    acts (at_putEntry found _) plan waitless
  exact ⟨_, e', ends, List.set_set .., rfl, rfl, ⟨rfl, rfl, rfl, rfl, rfl, rfl, rfl, rfl, rfl, rfl, rfl, rfl⟩, left, state,
    timer, lastUse, lastDebit, incoming⟩

theorem takesEntry_served (ready : s.station = .ready) (arrives : s.MayArrive d f e.waiting n) :
    ∃ u e', s.takesEntry i e lot f mark queue = u ∧ u.table = s.table.set i e' ∧ u.home = s.home ∧ u.line = s.line ∧
      s.Served u d mark (s.arrival d f e.waiting).1 (s.arrival d f e.waiting).2.1 n ∧ u.station = s.station ∧
      s.OwnerLeft e' lot mark queue d (s.arrival d f e.waiting).2.2 ∧ e'.incoming = e.incoming ∧
      (e'.state = .ownedModified ↔ (s.arrival d f e.waiting).1 ≠ []) ∧
      ((s.arrival d f e.waiting).1 ≠ [] → queue = [] → e'.publishTimer = some (s.config.publishDelay * 1000)) := by
  obtain ⟨u, e', ends, table, rest⟩ := arrives_served
    (w := (s.putEntry i (e.owning lot f mark queue s.ordinal)).nextOrdinal) (justOwner_owning e lot f mark queue s.ordinal)
    ready (at_putEntry found _) plan arrives
  exact ⟨u, e', ends, table.trans (List.set_set ..), rest⟩

theorem takesEntry_unnumbered {q : Request} (ready : s.station = .ready) (only : e.waiting = [q]) (may : s.MayServe [q])
    (early : s.minute < d.cutOff) (room : FitsIn q.figures f) (counter : s.sequence = some n)
    (short : 100000 < n + q.members.length) : ∃ u e', s.takesEntry i e lot f mark queue = u ∧
      s.AllRefused u [q] .noNumber [.noNumber] ∧ u.table = s.table.set i e' ∧ u.home = s.home ∧ u.line = s.line ∧
      u.station = s.station ∧ s.OwnerLeft e' lot mark queue d f ∧ e'.state = .owned ∧ e'.publishTimer = none ∧
      e'.incoming = e.incoming := by
  obtain ⟨u, e', ends, refused, table, rest⟩ := arrives_unnumbered
    (w := (s.putEntry i (e.owning lot f mark queue s.ordinal)).nextOrdinal) (justOwner_owning e lot f mark queue s.ordinal)
    ready (at_putEntry found _) plan only may early room counter short
  exact ⟨u, e', ends, refused, table.trans (List.set_set ..), rest⟩

/-- The request set aside moves on from the owner's entry with no list. -/
theorem takesEntry_aside {q : Request} (ready : s.station = .ready) (only : e.waiting = [q]) (may : s.MayServe [q])
    (unserved : d.cutOff ≤ s.minute ∨ ¬ FitsIn q.figures f) (noIncoming : e.incoming = none)
    (apart : ∀ c ∈ q.candidates.drop (q.next + 1), c.lot ≠ lot ∧ (queue ≠ [] ∨ s.homeOf c.lot = s.own)) :
    ∃ v e' o, s.takesEntry i e lot f mark queue = { v.putEntry i e' with ordinal := o, station := s.station } ∧
      State.MovesOn { s with
        table := s.table.set i { LotEntry.cleared with
          lot := some lot, state := .owned, figures := some f, reclaimed := mark, queue := queue, lastUse := s.ordinal
          lastDebit := s.ordinal }
        ordinal := s.ordinal + 1 } v q ∧
      v.line = s.line ∧ s.OwnerLeft e' lot mark queue d f ∧ e'.state = .owned ∧ e'.publishTimer = none ∧
      e'.incoming = none := by
  obtain ⟨v, e', o, ends, moves, line, station, rest⟩ := arrives_aside
    (w := (s.putEntry i (e.owning lot f mark queue s.ordinal)).nextOrdinal) (justOwner_owning e lot f mark queue s.ordinal)
    ready (at_putEntry found _) plan only may unserved noIncoming apart
  have station' : v.station = s.station := station
  refine ⟨v, e', o, ?_, ?_, line, rest⟩
  · rw [← station']
    exact ends
  · have emptied : { e.owning lot f mark queue s.ordinal with waiting := [] } = ({ LotEntry.cleared with
        lot := some lot, state := .owned, figures := some f, reclaimed := mark, queue := queue, lastUse := s.ordinal
        lastDebit := s.ordinal } : LotEntry) := by
      rw [LotEntry.owning, noIncoming]
      rfl
    rw [← emptied]
    have same := congrArg State.nextOrdinal (putEntry_putEntry s i (e.owning lot f mark queue s.ordinal)
      { e.owning lot f mark queue s.ordinal with waiting := [] })
    exact (congrArg (State.MovesOn · v q) same).mp moves

end

/-! ### A lot that no entry names -/

section
variable (f : Figures) (mark : Bool) (queue : List Nat)

theorem receiveUnnamed_made (least : s.LeastOf s.MayReplace (·.lastUse) i e) (noIncoming : s.incomingOf lot = none)
    (acts : s.Acts) (plan : s.planLot lot = some d) : ∃ u e', (s.receiveUnnamed lot f mark queue).settleLeaving = u ∧
      u.table = s.table.set i e' ∧ u.home = s.home ∧ u.line = s.line ∧ s.SameOutsideLots u ∧
      s.OwnerLeft e' lot mark queue d f ∧ e'.state = .owned ∧ e'.publishTimer = none ∧ e'.incoming = none := by
  rw [State.receiveUnnamed, chooseReplaceable_least least]
  dsimp only
  rw [takeIncoming_none noIncoming]
  dsimp only
  rw [State.entryReceives, makeEntry_takes least.1]
  let made := ({ LotEntry.cleared with waiting := [] } : LotEntry).owning lot f mark queue (s.ordinal + 1)
  obtain ⟨e', o, ends, left, state, timer, incoming, -, -⟩ := arrives_nothing
    (w := { s.putEntry i made with ordinal := s.ordinal + 2 }) (justOwner_owning _ _ _ _ _ _) acts
    (at_putEntry least.1 made) plan rfl
  exact ⟨_, e', ends, List.set_set .., rfl, rfl, ⟨rfl, rfl, rfl, rfl, rfl, rfl, rfl, rfl, rfl, rfl, rfl, rfl⟩, left, state,
    timer, incoming⟩

theorem receiveUnnamed_incoming {c : Incoming} (least : s.LeastOf s.MayReplace (·.lastUse) i e)
    (ready : s.station = .ready) (coming : s.incomingOf lot = some j) (found : s.table[j]? = some x)
    (incoming : x.incoming = some c) (plan : s.planLot lot = some d) (arrives : s.MayArrive d f c.waiting n) :
    ∃ u e', (s.receiveUnnamed lot f mark queue).settleLeaving = u ∧
      u.table = (s.table.set j { x with incoming := none }).set i e' ∧ u.home = s.home ∧ u.line = s.line ∧
      s.Served u d mark (s.arrival d f c.waiting).1 (s.arrival d f c.waiting).2.1 n ∧ u.station = s.station ∧
      s.OwnerLeft e' lot mark queue d (s.arrival d f c.waiting).2.2 := by
  have apart : j ≠ i := by
    rintro rfl
    obtain rfl := Option.some.inj (found.symm.trans least.1)
    rw [least.2.1.2.1] at incoming
    cases incoming
  have at' : (s.putEntry j { x with incoming := none }).table[i]? = some e := (List.getElem?_set_ne apart).trans least.1
  rw [State.receiveUnnamed, chooseReplaceable_least least]
  dsimp only
  rw [takeIncoming_some coming found incoming]
  dsimp only
  rw [State.entryReceives, makeEntry_takes at']
  let made := ({ LotEntry.cleared with waiting := c.waiting } : LotEntry).owning lot f mark queue (s.ordinal + 1)
  obtain ⟨u, e', ends, table, home, line, served, station, left, -⟩ := arrives_served
    (w := { (s.putEntry j { x with incoming := none }).putEntry i made with ordinal := s.ordinal + 2 })
    (justOwner_owning _ _ _ _ _ _) ready (at_putEntry at' made) plan arrives
  exact ⟨u, e', ends, table.trans (List.set_set ..), home, line, served, station, left⟩

theorem receiveUnnamed_returned (noneFree : ∀ x ∈ s.table, ¬ s.MayReplace x) (least : s.LeastOf MayReturn (·.lastUse) i e)
    (noIncoming : s.incomingOf lot = none) (acts : s.Acts) (plan : s.planLot lot = some d) :
    ∃ u e', (s.receiveUnnamed lot f mark queue).settleLeaving = u ∧ u.table = s.table.set i e' ∧ u.home = s.home ∧
      u.line = s.line ∧ s.SameOutsideLots u ∧ (e'.state = .owned ∧ e'.publishTimer = none ∧ e'.incoming = none) ∧
      e'.lot = some lot ∧ e'.figures = some f ∧ e'.reclaimed = mark ∧ e'.queue = queue ∧ e'.waiting = [] ∧
      (s.station = .ready → e'.handingOver = true ∧ e'.castout = true ∧ ∃ q, e'.frame = some ⟨.handover, d.home, q⟩) ∧
      (s.station ≠ .ready → s.Onward e' d queue) := by
  rw [State.receiveUnnamed, chooseReplaceable_none noneFree, chooseReturn_least least]
  dsimp only
  rw [takeIncoming_none noIncoming]
  dsimp only
  rw [makeEntry_takes least.1]
  let made := ({ LotEntry.cleared with waiting := [] } : LotEntry).owning lot f mark queue (s.ordinal + 1)
  obtain ⟨e', o, ends, state, named, left, marked, queued, waitless, ready, leaving⟩ := returnLot_spec
    (s := { s.putEntry i made with ordinal := s.ordinal + 2 }) (justOwner_owning _ _ _ _ _ _) acts
    (at_putEntry least.1 made) plan
  exact ⟨_, e', ends, List.set_set .., rfl, rfl, ⟨rfl, rfl, rfl, rfl, rfl, rfl, rfl, rfl, rfl, rfl, rfl, rfl⟩, state, named,
    left, marked, queued, waitless, ready, leaving⟩

theorem receiveUnnamed_unheld (noneFree : ∀ x ∈ s.table, ¬ s.MayReplace x) (noReturn : ∀ x ∈ s.table, ¬ MayReturn x) :
    (s.receiveUnnamed lot f mark queue).settleLeaving = { s with station := s.settled s.table } := by
  rw [State.receiveUnnamed, chooseReplaceable_none noneFree, chooseReturn_none noReturn]
  exact settleLeaving_eq _

end

end

/-- Settles O55: the record owns the lot, its requests are served or move on, then the lot goes on. -/
theorem handoverMakesItsRecipientOwner : Obligations.HandoverMakesItsRecipientOwner := by
  intro s sender b d running acts on quiet other short recipient plan figures queue mark
  have hears : s.Hears sender := ⟨running, acts, on, quiet, other⟩
  obtain ⟨more, whole, sub, nodup, fit, all⟩ := carriedQueue_spec s.own [] b.queue
  rw [List.nil_append] at whole all
  have ran := hears_handover hears short
  rw [onHandover_received (s := s.hearing sender) plan recipient other] at ran
  have taken : queue = more := whole
  refine ⟨by rw [taken]; exact nodup, fun n inQueue => ?_, by rw [taken]; exact sub, fun n inList small apart => ?_,
    fun r here one away => ?_, fun foreign => ?_⟩
  · rw [taken] at inQueue
    obtain ⟨small, apart, -⟩ := fit n inQueue
    exact ⟨small, apart, sub.subset inQueue⟩
  · rw [taken]
    exact all n inList small apart
  · have here' : (s.hearing sender).homeOf b.lot = (s.hearing sender).own := (homeOf_eq (s := s.hearing sender) plan).trans here
    rw [handoverReceived_home (s := s.hearing sender) here' one away] at ran
    have ends {u} (takes : (s.hearing sender).takesHome b.lot r figures mark queue = u) :
        exec (.handoverAccepted sender b) s = .next u := ran.trans (congrArg Host.Outcome.next takes)
    intro now taken
    refine ⟨fun waitless => ?_, fun n arrives => ?_, fun q n only may early room counter short => ?_,
      fun q ready only may unserved apart => ?_⟩
    · obtain ⟨u, r', takes, rest⟩ := takesHome_nothing (s := s.hearing sender) one plan figures mark queue waitless
      exact ⟨u, r', ends takes, rest⟩
    · obtain ⟨u, r', takes, rest⟩ := takesHome_served (s := s.hearing sender) one plan figures mark queue arrives
      exact ⟨u, r', ends takes, rest⟩
    · obtain ⟨u, r', takes, rest⟩ :=
        takesHome_unnumbered (s := s.hearing sender) one plan figures mark queue only may early room counter short
      exact ⟨u, r', ends takes, rest⟩
    · obtain ⟨v, r', o, takes, moves, line, left⟩ :=
        takesHome_aside (s := s.hearing sender) one plan figures mark queue ready only may unserved apart
      have line' : v.line = s.line.heard sender := line
      refine ⟨_, v, r', ends takes, moves, ?_, left⟩
      rw [← line']
      rfl
  · have foreign' : (s.hearing sender).homeOf b.lot ≠ (s.hearing sender).own := by
      rw [homeOf_eq (s := s.hearing sender) plan]
      exact foreign
    intro taken fresh
    refine ⟨fun i e one asked => ?_, fun i e noHome unnamed least => ⟨fun noIncoming => ?_,
      fun j x c n ready coming found incoming arrives => ?_⟩, fun noHome unnamed noneFree => ⟨fun i e least noIncoming => ?_,
      fun noReturn => ?_⟩⟩
    · have free : ¬ e.holds = true := by
        rw [holds_iff]
        obtain state | state | state := asked <;> rw [state] <;> nofun
      rw [handoverReceived_entry (s := s.hearing sender) foreign' one free] at ran
      have ends {u} (takes : (s.hearing sender).takesEntry i e b.lot figures mark queue = u) :
          exec (.handoverAccepted sender b) s = .next u := ran.trans (congrArg Host.Outcome.next takes)
      have found := one.2.2
      refine ⟨fun waitless => ?_, fun n ready arrives => ?_, fun q n ready only may early room counter short => ?_,
        fun q ready only may unserved kept noIncoming apart => ?_⟩
      · obtain ⟨u, e', takes, rest⟩ := takesEntry_nothing (s := s.hearing sender) found plan figures mark queue acts waitless
        exact ⟨u, e', ends takes, rest⟩
      · obtain ⟨u, e', takes, rest⟩ := takesEntry_served (s := s.hearing sender) found plan figures mark queue ready arrives
        exact ⟨u, e', ends takes, rest⟩
      · obtain ⟨u, e', takes, rest⟩ := takesEntry_unnumbered (s := s.hearing sender) found plan figures mark queue ready only
          may early room counter short
        exact ⟨u, e', ends takes, rest⟩
      · obtain ⟨v, e', o, takes, moves, line, left⟩ := takesEntry_aside (s := s.hearing sender) found plan figures mark queue
          ready only may unserved kept apart
        have line' : v.line = s.line.heard sender := line
        refine ⟨_, v, e', ends takes, moves, ?_, left⟩
        rw [← line']
        rfl
    · rw [handoverReceived_unnamed (s := s.hearing sender) foreign' unnamed] at ran
      obtain ⟨u, e', takes, rest⟩ :=
        receiveUnnamed_made (s := s.hearing sender) figures mark queue least noIncoming acts plan
      exact ⟨u, e', ran.trans (congrArg Host.Outcome.next takes), rest⟩
    · rw [handoverReceived_unnamed (s := s.hearing sender) foreign' unnamed] at ran
      obtain ⟨u, e', takes, rest⟩ := receiveUnnamed_incoming (s := s.hearing sender) figures mark queue least ready coming
        found incoming plan arrives
      exact ⟨u, e', ran.trans (congrArg Host.Outcome.next takes), rest⟩
    · rw [handoverReceived_unnamed (s := s.hearing sender) foreign' unnamed] at ran
      obtain ⟨u, e', takes, rest⟩ := receiveUnnamed_returned (s := s.hearing sender) figures mark queue noneFree least
        noIncoming acts plan
      exact ⟨u, e', ran.trans (congrArg Host.Outcome.next takes), rest⟩
    · rw [handoverReceived_unnamed (s := s.hearing sender) foreign' unnamed] at ran
      exact ran.trans (congrArg Host.Outcome.next
        (receiveUnnamed_unheld (s := s.hearing sender) figures mark queue noneFree noReturn))

end Sys2Proof.Machine

end

section
/-! The grouping of pieces at the rate position: a consignment opened, joined, and refused for an order error (R62, R64 to
R67, R69). -/

namespace Sys2Proof.Machine

section
variable {s : State} {t : Tariff} {i : Nat} {x : Record} {p : ParcelRecord} {c : Consignment}

theorem matchedBy_iff (c : Consignment) (p : ParcelRecord) :
    c.matchedBy p = true ↔ p.service = c.service ∧ p.destination = c.destination := by
  rw [Consignment.matchedBy, Bool.and_eq_true, beq_iff_eq, beq_iff_eq]

theorem State.AboutToTake.owns (h : s.AboutToTake t i (.parcel p)) : s.OwnsParcel i p :=
  have ⟨_, _, _, _, _, queued, record⟩ := h
  ownsParcel_of_queued queued record

theorem State.AboutToTake.notGrouped (h : s.AboutToTake t i x) : (s.slot i).tag ≠ .grouped := by
  obtain ⟨-, -, -, -, -, queued, -⟩ := h
  rw [queued]
  nofun

theorem ringInv_of_fits (fits : s.RingFits) : RingInv s (fun _ => False) := ((ringFits_iff s).1 fits).1

/-! ### One step of the rate position by the piece mark -/

theorem takeRecord_first (mark : p.pieceMark = 1) (none : s.ring.consignment = none) :
    s.takeRecord t i (.parcel p) = s.openConsignment i p := by
  simp only [State.takeRecord, mark]
  rw [endOpenConsignment_none none]

theorem takeRecord_middle (mark : p.pieceMark = 2) : s.takeRecord t i (.parcel p) = s.takeMiddle i p := by
  simp only [State.takeRecord, mark]

theorem takeRecord_last (mark : p.pieceMark = 3) : s.takeRecord t i (.parcel p) = s.takeLast t i p := by
  simp only [State.takeRecord, mark]

/-- A MIDDLE or LAST piece with none open (R67). -/
theorem takeRecord_alone_refused (mark : p.pieceMark = 2 ∨ p.pieceMark = 3) (none : s.ring.consignment = none) :
    s.takeRecord t i (.parcel p) = s.refuseAlone i := by
  obtain mark | mark := mark
  · rw [takeRecord_middle mark, State.takeMiddle, none]
  · rw [takeRecord_last mark, State.takeLast, none]

/-- A MIDDLE piece that fits (R65). -/
theorem takeRecord_joins (mark : p.pieceMark = 2) (opened : s.ring.consignment = some c) (matched : c.matchedBy p = true)
    (room : c.members.length < 7) : s.takeRecord t i (.parcel p) = s.joinConsignment i c := by
  have fits : ¬ (!c.matchedBy p || decide (Config.slotCount ≤ c.members.length + 1)) = true := by
    simp only [matched, Config.slotCount]
    simpa using room
  rw [takeRecord_middle mark, State.takeMiddle, opened]
  exact if_neg fits

/-- A piece that does not match, or a MIDDLE that would be the eighth (R65 to R67). -/
theorem takeRecord_refused (opened : s.ring.consignment = some c)
    (wrong : (p.pieceMark = 2 ∧ (p.service ≠ c.service ∨ p.destination ≠ c.destination ∨ 7 ≤ c.members.length)) ∨
      (p.pieceMark = 3 ∧ (p.service ≠ c.service ∨ p.destination ≠ c.destination))) :
    s.takeRecord t i (.parcel p) = s.refuseConsignment (c.members ++ [i]) .consignmentOrder .consignmentOrder := by
  have other (h : p.service ≠ c.service ∨ p.destination ≠ c.destination) : c.matchedBy p = false := by
    rw [← Bool.not_eq_true, matchedBy_iff]
    tauto
  obtain ⟨mark, wrong⟩ | ⟨mark, wrong⟩ := wrong
  · have ends : (!c.matchedBy p || decide (Config.slotCount ≤ c.members.length + 1)) = true := by
      obtain wrong | wrong | full := wrong
      · rw [other (.inl wrong)]; rfl
      · rw [other (.inr wrong)]; rfl
      · rw [Bool.or_eq_true, decide_eq_true_iff]
        exact .inr (Nat.succ_le_succ full)
    rw [takeRecord_middle mark, State.takeMiddle, opened]
    exact if_pos ends
  · rw [takeRecord_last mark, State.takeLast, opened]
    exact if_pos (by rw [other wrong]; rfl)

/-! ### Their effects -/

/-- A FIRST piece opens a consignment (R64). -/
theorem exec_first (takes : s.AboutToTake t i (.parcel p)) (mark : p.pieceMark = 1) (none : s.ring.consignment = none) :
    exec .ratePositionActs s = .next { s with ring := { s.ring with
      slots := s.ring.slots.set i { s.slot i with tag := .grouped, link := some ⟨[i], 1⟩ }
      rate := (i + 1) % 8
      pendingCount := s.ring.pendingCount - 1
      consignment := some ⟨[i], p.service, p.destination⟩
      watchdog := some (s.config.watchdog * 1000)
      takings := s.ring.takings + 1 } } := by
  rw [exec_ratePosition takes, takeRecord_first (s := s.counted) mark none]
  have slots := modify_eq_set (lt_of_engineOwns takes.owns.1) fun x => { x with tag := .grouped, link := some ⟨[i], 1⟩ }
  obtain ⟨-, -, -, rfl, -⟩ := takes
  rw [slot_eq_getD] at slots
  rw [← slots]
  rfl

/-- A MIDDLE piece joins (R65). -/
theorem exec_joins (takes : s.AboutToTake t i (.parcel p)) (mark : p.pieceMark = 2) (opened : s.ring.consignment = some c)
    (matched : c.matchedBy p = true) (room : c.members.length < 7) :
    exec .ratePositionActs s = .next { s with ring := { s.ring with
      slots := s.ring.slots.set i { s.slot i with tag := .grouped, link := some ⟨c.members ++ [i], c.members.length + 1⟩ }
      rate := (i + 1) % 8
      pendingCount := s.ring.pendingCount - 1
      consignment := some { c with members := c.members ++ [i] }
      takings := s.ring.takings + 1 } } := by
  rw [exec_ratePosition takes, takeRecord_joins (s := s.counted) mark opened matched room]
  have slots := modify_eq_set (lt_of_engineOwns takes.owns.1) fun x =>
    { x with tag := .grouped, link := some ⟨c.members ++ [i], (c.members ++ [i]).length⟩ }
  obtain ⟨-, -, -, rfl, -⟩ := takes
  rw [slot_eq_getD] at slots
  have length : (c.members ++ [s.ring.rate]).length = c.members.length + 1 := by simp
  rw [← length, ← slots]
  rfl

/-- A MIDDLE or LAST piece with none open is refused alone (R67). -/
theorem exec_refusedAlone (takes : s.AboutToTake t i (.parcel p)) (mark : p.pieceMark = 2 ∨ p.pieceMark = 3)
    (none : s.ring.consignment = none) :
    ∃ u, exec .ratePositionActs s = .next u ∧ Slot.RefusedAs (s.slot i) (u.slot i) .consignmentOrder ∧
      (∀ j, j ≠ i → u.slot j = s.slot j) ∧ s.ring.Advanced u.ring ∧ u.ring.consignment = Option.none ∧
      SetExactly s.unit.summary u.unit.summary [.consignmentOrder] ∧ u.response = s.response ∧
      State.SameOutsideRing s u := by
  have refuses := completeParcel_refused (s := s.counted) takes.owns Option.none .consignmentOrder
  have step := SlotStep.completeParcel s.counted i Option.none (.refused .consignmentOrder)
  refine ⟨_, (exec_ratePosition takes).trans (congrArg (fun v : State => Host.Outcome.next v.advanceRate)
    (takeRecord_alone_refused (s := s.counted) mark none)), (refuses.refused i List.mem_cons_self).1,
    fun j other => refuses.others j (by simpa using other), ⟨?_, ?_, ?_, step.length⟩, ?_, ?_, step.response, step.outside⟩
  · exact (congrArg Ring.put refuses.ring).trans rfl
  · exact (congrArg (fun r : Ring => nextPosition r.rate) refuses.ring).trans rfl
  · exact (congrArg (fun r : Ring => r.pendingCount - 1) refuses.ring).trans rfl
  · exact (congrArg Ring.consignment refuses.ring).trans none
  · have summary : (s.counted.completeParcel i Option.none (.refused .consignmentOrder)).unit.summary = s.unit.summary :=
      (congrArg RatingUnit.summary refuses.unit).trans rfl
    exact summary ▸ setExactly_setFlag _ _

/-- A piece that ends the open consignment refused (R62, R67). -/
theorem exec_refused (takes : s.AboutToTake t i (.parcel p)) (fits : s.RingFits) (opened : s.ring.consignment = some c)
    (wrong : (p.pieceMark = 2 ∧ (p.service ≠ c.service ∨ p.destination ≠ c.destination ∨ 7 ≤ c.members.length)) ∨
      (p.pieceMark = 3 ∧ (p.service ≠ c.service ∨ p.destination ≠ c.destination))) :
    ∃ u, exec .ratePositionActs s = .next u ∧
      State.ConsignmentRefused s u (c.members ++ [i]) .consignmentOrder .consignmentOrder ∧
      s.ring.Advanced u.ring ∧ u.response = s.response ∧ State.SameOutsideRing s u := by
  have owns := (ringInv_of_fits fits).ownsMembers_and opened takes.owns takes.notGrouped
  obtain ⟨refused, ring, length⟩ := refuseConsignment_spec (s := s.counted) ⟨owns.nodup, owns.parcels⟩ (by simp)
    .consignmentOrder .consignmentOrder
  obtain ⟨outside, response⟩ := refuseConsignment_outside s.counted (c.members ++ [i]) .consignmentOrder .consignmentOrder
  refine ⟨_, (exec_ratePosition takes).trans (congrArg (fun v : State => Host.Outcome.next v.advanceRate)
    (takeRecord_refused (s := s.counted) opened wrong)), refused, ⟨?_, ?_, ?_, length⟩, response, outside⟩
  · exact (congrArg Ring.put ring).trans rfl
  · exact (congrArg (fun r : Ring => nextPosition r.rate) ring).trans rfl
  · exact (congrArg (fun r : Ring => r.pendingCount - 1) ring).trans rfl

/-! ### Another record while one is open (R62) -/

theorem counted_linkMembers (s : State) (all : List Nat) (piece : Nat) (is : List Nat) :
    s.counted.linkMembers all piece is = (s.linkMembers all piece is).counted := by
  induction is generalizing s piece with
  | nil => rfl
  | cons i is ih => exact ih (s.updateSlot i _) (piece + 1)

theorem counted_completeParcel (s : State) (i : Nat) (d : Option DispatchFields) (c : Completion) :
    s.counted.completeParcel i d c = (s.completeParcel i d c).counted := by
  unfold State.completeParcel
  rw [show s.counted.slot i = s.slot i from rfl]
  split
  · cases c <;> rfl
  · rfl

theorem counted_refuseMembers (s : State) (is : List Nat) (d : Option DispatchFields) (why : Reason) :
    s.counted.refuseMembers is d why = (s.refuseMembers is d why).counted := by
  unfold State.refuseMembers
  induction is generalizing s with
  | nil => rfl
  | cons i is ih => rw [List.foldl_cons, List.foldl_cons, counted_completeParcel, ih]

theorem counted_endOpenConsignment (s : State) : s.counted.endOpenConsignment = s.endOpenConsignment.counted := by
  unfold State.endOpenConsignment
  rw [show s.counted.ring.consignment = s.ring.consignment from rfl]
  cases s.ring.consignment with
  | none => rfl
  | some c =>
    dsimp only
    rw [State.refuseConsignment, State.refuseConsignment, counted_linkMembers, counted_refuseMembers]
    rfl

theorem closed_endOpenConsignment (s : State) : s.endOpenConsignment.ring.consignment = none := by
  rw [State.endOpenConsignment]
  cases opened : s.ring.consignment with
  | none => exact opened
  | some c => rfl

/-- It is taken as with none open (R62). -/
theorem takeRecord_endOpen (apart : ∀ p, x = .parcel p → p.pieceMark ≠ 2 ∧ p.pieceMark ≠ 3) :
    s.takeRecord t i x = s.endOpenConsignment.takeRecord t i x := by
  have again := endOpenConsignment_none (closed_endOpenConsignment s)
  cases x with
  | screen r => exact congrArg (fun v : State => v.takeScreen i r) again.symm
  | parcel p =>
    obtain ⟨notMiddle, notLast⟩ := apart p rfl
    unfold State.takeRecord
    dsimp only
    rw [again]
    split
    · rfl
    · contradiction
    · contradiction
    · rfl

/-- The open consignment refused, and the record then taken with none open (R62). -/
theorem exec_endsOpen (takes : s.AboutToTake t i x) (fits : s.RingFits) (opened : s.ring.consignment = some c)
    (apart : ∀ p, x = .parcel p → p.pieceMark ≠ 2 ∧ p.pieceMark ≠ 3) :
    ∃ m, State.ConsignmentRefused s m c.members .consignmentOrder .consignmentOrder ∧ m.AboutToTake t i x ∧
      m.RingFits ∧ m.response = s.response ∧ State.SameOutsideRing s m ∧
      m.ring = { s.ring with slots := m.ring.slots, consignment := none, watchdog := none } ∧
      exec .ratePositionActs s = exec .ratePositionActs m := by
  obtain ⟨inv, empty⟩ := (ringFits_iff s).1 fits
  have ends : s.endOpenConsignment = s.refuseConsignment c.members .consignmentOrder .consignmentOrder := by
    rw [State.endOpenConsignment, opened]
  obtain ⟨refused, ring, -⟩ := refuseConsignment_spec (inv.ownsMembers opened) (inv.members c opened).1
    .consignmentOrder .consignmentOrder
  obtain ⟨outside, response⟩ := refuseConsignment_outside s c.members .consignmentOrder .consignmentOrder
  obtain ⟨-, untouched, -⟩ := endOpenConsignment_spec inv
  have slot := untouched i takes.notGrouped
  have inv' := inv.endOpenConsignment
  have ran : exec .ratePositionActs s = .next (s.endOpenConsignment.counted.takeRecord t i x).advanceRate := by
    rw [exec_ratePosition takes, takeRecord_endOpen (s := s.counted) apart, counted_endOpenConsignment]
  rw [ends] at slot inv' ran
  generalize s.refuseConsignment c.members .consignmentOrder .consignmentOrder = m at *
  obtain ⟨running, ready, store, rate, pending, queued, record⟩ := takes
  have ⟨_, held, station, _, _, _, _, store', _⟩ := outside
  have takes' : m.AboutToTake t i x := by
    refine ⟨held.trans running, station.trans ready, store'.trans store, ?_, ?_, by rw [slot]; exact queued,
      by rw [slot]; exact record⟩
    · rw [ring]; exact rate
    · rw [ring]; exact pending
  refine ⟨m, refused, takes', (ringFits_iff m).2 ⟨inv', fun other => absurd (station.trans ready) other⟩, response, outside, ring,
    ran.trans (exec_ratePosition takes').symm⟩

end

end Sys2Proof.Machine

end

section
/-! A consignment that a LAST piece closes: its members sought as one, refused as one, or labelled as one (R23, R25, R66,
R87, R110, R166, R167). -/

namespace Sys2Proof.Machine

/-! ### Sums over the pieces -/

theorem foldl_plus (l : List Figures) (f : Figures) : l.foldl Figures.plus f =
    ⟨f.weight + (l.map (·.weight)).sum, f.litres + (l.map (·.litres)).sum, f.pieces + (l.map (·.pieces)).sum⟩ := by
  induction l generalizing f with
  | nil => rfl
  | cons g l ih =>
    rw [List.foldl_cons, ih]
    simp [Figures.plus, Nat.add_assoc]

/-- A consignment that is rated whole has a result for every piece (R23). -/
theorem ratePieces_whole {t : Tariff} {sc : Screen} {masks : RatingMasks} {n : Nat} {ps : List ParcelRecord}
    (whole : (ratePieces t sc masks n ps).2.2 = true) : ∀ x ∈ (ratePieces t sc masks n ps).1, ∃ r, x = some r := by
  induction ps with
  | nil => nofun
  | cons p ps ih =>
    rw [ratePieces] at whole ⊢
    dsimp only at whole ⊢
    split at whole
    case isTrue => cases whole
    case isFalse accepted =>
      rw [if_neg accepted]
      intro x inList
      obtain rfl | inRest := List.mem_cons.1 inList
      · exact ⟨_, rfl⟩
      · exact ih whole x inRest

/-! ### The members rated -/

/-- The members of a closed consignment with their links and results; each may have become SEEKING (R23, R66, R71). -/
structure State.RatedWhole (s v : State) (members : List Nat) (rs : List (Option RatingResult)) (fs : List Flag) : Prop where
  slot : ∀ k j x, members[k]? = some j → rs[k]? = some x →
    v.slot j = { s.slot j with tag := (v.slot j).tag, link := some ⟨members, k + 1⟩, rating := x }
  others : ∀ j, j ∉ members → v.slot j = s.slot j
  length : v.ring.slots.length = s.ring.slots.length
  flags : SetExactly s.unit.summary v.unit.summary fs
  ring : v.ring = { s.ring with
    slots := v.ring.slots, consignment := none, watchdog := none, takings := s.ring.takings + 1 }
  rest : v = { s with ring := v.ring, unit := { s.unit with summary := v.unit.summary } }

/-- What the closing of a consignment leaves of the rate position's event. -/
def State.Closed (s u : State) (members : List Nat) : Prop :=
  (∀ j, j ∉ members → u.slot j = s.slot j) ∧ s.ring.Advanced u.ring ∧
  u.ring.consignment = none ∧ u.ring.watchdog = none ∧ u.response = s.response ∧ u.line = s.line ∧
  u.screen = s.screen ∧ u.store = s.store ∧ u.clock = s.clock ∧ u.station = s.station ∧
  u.configuration = s.configuration ∧ u.table = s.table

/-- The slots of members refused after their rating (R88). -/
def State.MembersRated (s u : State) (members : List Nat) (rs : List (Option RatingResult))
    (why : Option RatingResult → Reason) : Prop :=
  ∀ k j x, members[k]? = some j → rs[k]? = some x → (u.slot j).link = some ⟨members, k + 1⟩ ∧
    Slot.RatedRefused { s.slot j with link := some ⟨members, k + 1⟩ } (u.slot j) x (why x)

section
variable {s v e : State} {members : List Nat} {rs : List (Option RatingResult)} {fs fs' : List Flag} {why : Reason}

theorem State.RatedWhole.closed (h : s.RatedWhole v members rs fs) (others : ∀ j, j ∉ members → e.slot j = v.slot j)
    (length : e.ring.slots.length = v.ring.slots.length) (ring : e.ring = { v.ring with slots := e.ring.slots })
    (rest : e = { v with ring := e.ring, unit := e.unit, home := e.home, sequence := e.sequence }) :
    s.Closed e.advanceRate members := by
  have whole := ring.trans (congrArg (fun g : Ring => { g with slots := e.ring.slots }) h.ring)
  have same {α : Type} (f : State → α) : f e = f _ := congrArg f rest
  have before {α : Type} (f : State → α) : f v = f _ := congrArg f h.rest
  exact ⟨fun j out => (others j out).trans (h.others j out), ⟨(congrArg Ring.put whole).trans rfl,
    (congrArg (fun g : Ring => nextPosition g.rate) whole).trans rfl,
    (congrArg (fun g : Ring => g.pendingCount - 1) whole).trans rfl, length.trans h.length⟩,
    (congrArg Ring.consignment whole).trans rfl, (congrArg Ring.watchdog whole).trans rfl,
    (same State.response).trans (before State.response), (same State.line).trans (before State.line),
    (same State.screen).trans (before State.screen), (same State.store).trans (before State.store),
    (same State.clock).trans (before State.clock), (same State.station).trans (before State.station),
    (same State.configuration).trans (before State.configuration), (same State.table).trans (before State.table)⟩

/-- Its members refused for one reason, with flags raised before (R86, R87, R167). -/
theorem State.RatedWhole.refused (h : s.RatedWhole v members rs fs) {w : BitVec 16}
    (raised : SetExactly v.unit.summary w fs')
    (refuses : ({ v with unit := { v.unit with summary := w } } : State).Refuses e members why) :
    s.Closed e.advanceRate members ∧ e.home = s.home ∧ e.sequence = s.sequence ∧
      s.MembersRated e.advanceRate members rs (fun _ => why) ∧ e.unit.labelsIssued = s.unit.labelsIssued ∧
      SetExactly s.unit.summary e.unit.summary (fs ++ fs') := by
  have unit := refuses.unit
  have before {α : Type} (f : State → α) : f v = f _ := congrArg f h.rest
  have same {α : Type} (f : State → α) : f e = f _ := congrArg f refuses.rest
  refine ⟨h.closed refuses.others refuses.length refuses.ring ?_, (same State.home).trans (before State.home),
    (same State.sequence).trans (before State.sequence), fun k j x member result => ?_, ?_, ?_⟩
  · rw [refuses.rest]
  · obtain ⟨refused, link⟩ := refuses.refused j (List.mem_of_getElem? member)
    have slot : ({ v with unit := { v.unit with summary := w } } : State).slot j = _ := h.slot k j x member result
    rw [slot] at refused link
    exact ⟨link, refused⟩
  · rw [unit]
    exact (before State.unit).symm ▸ rfl
  · rw [unit]
    exact h.flags.trans raised

/-! ### The two ends of the rating -/

theorem ratedWhole_ratedMembers (owns : s.OwnsParcels members) (length : rs.length = members.length) (fs : List Flag) :
    s.RatedWhole (s.counted.ratedMembers members rs fs) members rs fs := by
  have owns' : s.counted.OwnsParcels members := ⟨owns.nodup, owns.parcels⟩
  have whole := ratedMembers_eq (s := s.counted) (members := members) (results := rs) fs
  refine ⟨fun k j x member result => ?_, fun j out => slot_ratedMembers_other (s := s.counted) length fs out,
    length_ratedMembers (s := s.counted) fs, setExactly_ratedMembers (s := s.counted) fs,
    (congrArg State.ring whole).trans rfl, ?_⟩
  · have slot := slot_ratedMembers owns' length fs member result
    rw [slot]
    rfl
  · generalize s.counted.ratedMembers members rs fs = v at whole ⊢
    rw [whole]
    rfl

theorem length_seekAll (s : State) (members : List Nat) :
    (members.foldl State.seek s).ring.slots.length = s.ring.slots.length :=
  (SlotStep.foldl _ (fun s i => SlotStep.updateSlot s i fun x => { x with tag := .seeking }) members s).length

/-- The members SEEKING (R71). -/
theorem State.RatedWhole.sought (h : s.RatedWhole v members rs fs) (nodup : members.Nodup) :
    s.RatedWhole (members.foldl State.seek v) members rs fs := by
  have whole := seekAll_eq v members
  have slots := slot_seekAll v nodup
  have length := length_seekAll v members
  generalize members.foldl State.seek v = w at *
  refine ⟨fun k j x member result => ?_, fun j out => ?_, length.trans h.length, ?_, ?_, ?_⟩
  · have slot := h.slot k j x member result
    rw [slots]
    split
    · rw [slot]
    · exact slot
  · rw [slots, if_neg fun inside => out inside.1]
    exact h.others j out
  · rw [whole]
    exact h.flags
  · rw [whole]
    exact congrArg (fun g : Ring => { g with slots := w.ring.slots }) h.ring
  · rw [whole]
    exact congrArg (fun x : State => { x with ring := { x.ring with slots := w.ring.slots } }) h.rest

theorem State.RatedWhole.allSeeking (h : s.RatedWhole v members rs fs) (owns : s.OwnsParcels members)
    (length : rs.length = members.length) : (members.foldl State.seek v).AllSeeking members := by
  refine ⟨owns.nodup, fun j inList => ?_⟩
  obtain ⟨p, owned, record⟩ := owns.parcels j inList
  obtain ⟨k, small, rfl⟩ := List.mem_iff_getElem.1 inList
  have slot := h.slot k _ _ (List.getElem?_eq_getElem small) (List.getElem?_eq_getElem (length ▸ small))
  rw [slot_seekAll v owns.nodup, if_pos ⟨inList, h.length.symm ▸ lt_of_engineOwns owned⟩]
  exact ⟨rfl, p, (congrArg Slot.record slot).trans record⟩

/-- A rated member's share of its consignment's figures (R104). -/
theorem State.RatedWhole.share (h : s.RatedWhole v members rs fs) {k j : Nat} {p : ParcelRecord} {r : RatingResult}
    (member : members[k]? = some j) (record : (s.slot j).record = some (.parcel p)) (result : rs[k]? = some (some r)) :
    (v.slot j).share = ⟨p.weight, r.litres, 1⟩ := by
  rw [h.slot k j _ member result]
  simp only [Slot.share, record]

/-- The pieces' figures as one (R104). -/
def piecesFigures (ps : List ParcelRecord) (rs : List (Option RatingResult)) : Figures :=
  ⟨(ps.map (·.weight)).sum, (rs.map (fun x => (x.map (·.litres)).getD 0)).sum, ps.length⟩

theorem State.RatedWhole.figures (h : s.RatedWhole v members rs fs) {ps : List ParcelRecord}
    (records : members.map (fun j => (s.slot j).record) = ps.map (fun x => some (.parcel x)))
    (length : rs.length = members.length) (all : ∀ x ∈ rs, ∃ r, x = some r) :
    (members.map (fun j => (v.slot j).share)).foldl Figures.plus .zero = piecesFigures ps rs := by
  have count : ps.length = members.length := by simpa using (congrArg List.length records).symm
  have share (k : Nat) (small : k < members.length) : (v.slot members[k]).share =
      ⟨(ps[k]'(count ▸ small)).weight, ((rs[k]'(length ▸ small)).map (·.litres)).getD 0, 1⟩ := by
    have record : (s.slot members[k]).record = some (.parcel (ps[k]'(count ▸ small))) := by
      have at' := congrArg (·[k]?) records
      simpa [small, count ▸ small] using at'
    obtain ⟨r, result⟩ := all _ (List.getElem_mem (length ▸ small : k < rs.length))
    rw [h.share (List.getElem?_eq_getElem small) record (r := r) (by rw [List.getElem?_eq_getElem (length ▸ small), result]),
      result]
    rfl
  have weights : (members.map fun j => (v.slot j).share).map (·.weight) = ps.map (·.weight) :=
    List.ext_getElem (by simp [count]) fun k small _ => by simp [share k (by simpa using small)]
  have litres : (members.map fun j => (v.slot j).share).map (·.litres) = rs.map (fun x => (x.map (·.litres)).getD 0) :=
    List.ext_getElem (by simp [length]) fun k small _ => by simp [share k (by simpa using small)]
  have pieces : (members.map fun j => (v.slot j).share).map (·.pieces) = List.replicate members.length 1 :=
    List.ext_getElem (by simp) fun k small _ => by simp [share k (by simpa using small)]
  rw [foldl_plus, weights, litres, pieces, piecesFigures, List.sum_replicate_nat]
  simp [Figures.zero, count]

end

end Sys2Proof.Machine

end

section
/-! Settles O47: the pieces of a consignment at the rate position (R23, R25, R62, R64 to R67, R69, R86 to R88, R110). -/

namespace Sys2Proof.Machine

/-- A LAST piece about to close the open consignment, whose members rate as `rs` with flags `fs` (R23, R66). -/
structure State.Closes (s : State) (t : Tariff) (i : Nat) (p : ParcelRecord) (c : Consignment) (ps : List ParcelRecord)
    (rs : List (Option RatingResult)) (fs : List Flag) (whole : Bool) : Prop where
  takes : s.AboutToTake t i (.parcel p)
  mark : p.pieceMark = 3
  opened : s.ring.consignment = some c
  matched : c.matchedBy p = true
  owns : s.OwnsParcels (c.members ++ [i])
  started : c.members ≠ []
  records : (c.members ++ [i]).map (fun j => (s.slot j).record) = ps.map (fun x => some (.parcel x))
  rated : ratePieces t s.activeScreen s.ratingMasks (c.members ++ [i]).length ps = (rs, fs, whole)

section
variable {s v e : State} {t : Tariff} {i n : Nat} {p : ParcelRecord} {c : Consignment} {ps : List ParcelRecord}
  {rs : List (Option RatingResult)} {fs : List Flag} {whole : Bool} {r : RatingResult}

namespace State.Closes

theorem count (h : s.Closes t i p c ps rs fs whole) : ps.length = (c.members ++ [i]).length := by
  simpa using (congrArg List.length h.records).symm

theorem length (h : s.Closes t i p c ps rs fs whole) : rs.length = (c.members ++ [i]).length := by
  have length := length_ratePieces t s.activeScreen s.ratingMasks (c.members ++ [i]).length ps
  rw [h.rated] at length
  exact length.trans h.count

theorem results (h : s.Closes t i p c ps rs fs true) : ∀ x ∈ rs, ∃ r, x = some r := by
  have all := ratePieces_whole (t := t) (sc := s.activeScreen) (masks := s.ratingMasks) (n := (c.members ++ [i]).length)
    (ps := ps)
  rw [h.rated] at all
  exact all rfl

theorem severalPieces (h : s.Closes t i p c ps rs fs whole) : 1 < (c.members ++ [i]).length := by
  have := List.length_pos_iff.2 h.started
  rw [List.length_append, List.length_singleton]
  omega

theorem ratedWhole (h : s.Closes t i p c ps rs fs whole) : s.RatedWhole (s.counted.ratedMembers (c.members ++ [i]) rs fs) (c.members ++ [i]) rs fs :=
  ratedWhole_ratedMembers h.owns h.length fs

theorem sought (h : s.Closes t i p c ps rs fs whole) :
    s.RatedWhole ((c.members ++ [i]).foldl State.seek (s.counted.ratedMembers (c.members ++ [i]) rs fs)) (c.members ++ [i]) rs fs :=
  h.ratedWhole.sought h.owns.nodup

theorem allSeeking (h : s.Closes t i p c ps rs fs whole) :
    ((c.members ++ [i]).foldl State.seek (s.counted.ratedMembers (c.members ++ [i]) rs fs)).AllSeeking (c.members ++ [i]) :=
  h.ratedWhole.allSeeking h.owns h.length

theorem takeLast (h : s.Closes t i p c ps rs fs whole) : exec .ratePositionActs s =
    .next (s.counted.takeLast t i p).advanceRate := by
  rw [exec_ratePosition h.takes, takeRecord_last h.mark]

/-- A consignment refused at rating (R25, R88). -/
theorem refusedAtRating (h : s.Closes t i p c ps rs fs false) : ∃ u, exec .ratePositionActs s = .next u ∧
    s.Closed u (c.members ++ [i]) ∧ u.home = s.home ∧ u.sequence = s.sequence ∧
    s.MembersRated u (c.members ++ [i]) rs peerReason ∧
    SetExactly s.unit.summary u.unit.summary (fs ++ [.consignmentPeer]) ∧ u.unit.labelsIssued = s.unit.labelsIssued ∧
    (s.unit.recordsRefused ≤ 65535 →
      u.unit.recordsRefused = min (s.unit.recordsRefused + (c.members ++ [i]).length) 65535) := by
  have ran := h.takeLast
  have rated := h.ratedWhole
  have length := h.length
  have owns := ownsParcels_ratedMembers (s := s.counted) ⟨h.owns.nodup, h.owns.parcels⟩ length fs
  rw [takeLast_eq (s := s.counted) h.opened h.matched ⟨h.owns.nodup, h.owns.parcels⟩ h.records h.rated,
    if_neg Bool.false_ne_true] at ran
  generalize c.members ++ [i] = members at *
  have slots : (ratedRefusals (members.zip rs)).map (·.1) = members := by
    rw [ratedRefusals_slots, zip_slots length]
  have may : (s.counted.ratedMembers members rs fs).MayComplete (ratedRefusals (members.zip rs)) := by
    refine ⟨slots.symm ▸ owns.nodup, fun x inList => owns.parcels _ ?_⟩
    exact slots ▸ List.mem_map_of_mem inList
  have refuses : ∀ x ∈ ratedRefusals (members.zip rs), ∃ why, x.2.2 = .refused why := by
    intro x inList
    obtain ⟨y, -, rfl⟩ := List.mem_map.1 inList
    exact ⟨_, rfl⟩
  have completes := completeAll_eq may
  rw [counting_refused _ refuses] at completes
  have size : (ratedRefusals (members.zip rs)).length = members.length := by
    rw [← slots, List.length_map, slots]
  rw [size] at completes
  have before {α : Type} (f : State → α) : f (s.counted.ratedMembers members rs fs) = f _ := congrArg f rated.rest
  have outside (j : Nat) (out : j ∉ members) := slot_completeAll_other (s.counted.ratedMembers members rs fs)
    (ratedRefusals (members.zip rs)) (j := j) (by rwa [slots])
  have inside (k j : Nat) (x : Option RatingResult) (member : members[k]? = some j) (result : rs[k]? = some x) :=
    slot_completeAll may (x := (j, none, .refused (peerReason x))) (List.mem_map.2 ⟨(j, x), List.mem_of_getElem? (i := k)
      (List.getElem?_zip_eq_some.2 ⟨member, result⟩), rfl⟩)
  have sameLength := length_completeAll (s.counted.ratedMembers members rs fs) (ratedRefusals (members.zip rs))
  generalize (s.counted.ratedMembers members rs fs).completeAll (ratedRefusals (members.zip rs)) = w at *
  have after {α : Type} (f : State → α) : f w = f _ := congrArg f completes
  refine ⟨_, ran, rated.closed (e := w.raise .consignmentPeer) outside sameLength (after State.ring) ?_,
    (after State.home).trans (before State.home), (after State.sequence).trans (before State.sequence),
    fun k j x member result => ?_, ?_, ?_, fun bound => ?_⟩
  · rw [completes]
    rfl
  · obtain ⟨q, -, slot⟩ := inside k j x member result
    have slot' : (w.raise .consignmentPeer).advanceRate.slot j = _ := slot
    rw [slot', rated.slot k j x member result]
    exact ⟨rfl, refusedAs_completed _ _ _ _⟩
  · have summary : w.unit.summary = (s.counted.ratedMembers members rs fs).unit.summary := after (·.unit.summary)
    refine rated.flags.trans ?_
    rw [← summary]
    exact setExactly_setFlag _ _
  · exact (after (·.unit.labelsIssued)).trans (before (·.unit.labelsIssued))
  · refine (after (·.unit.recordsRefused)).trans ?_
    rw [← countUp_iterate (.inl bound)]
    exact congrArg (countUp^[members.length]) (before (·.unit.recordsRefused))

/-- The request of the members (R104). -/
def request (s : State) (t : Tariff) (members : List Nat) (service : Nat) (r : RatingResult) (f : Figures) : Request :=
  ⟨members, s.ring.takings + 1, service, r.route, f, candidatesOf t s.minute r.route service, 0, none⟩

/-- A consignment rated whole seeks its lot as one request (R66, R104). -/
theorem seeks (h : s.Closes t i p c ps rs fs true) (first : rs[0]? = some (some r)) : exec .ratePositionActs s =
    .next ((((c.members ++ [i]).foldl State.seek (s.counted.ratedMembers (c.members ++ [i]) rs fs)).tryAll
      (request s t (c.members ++ [i]) c.service r (piecesFigures ps rs))
      (candidatesOf t s.minute r.route c.service)).advanceRate) := by
  have ran := h.takeLast
  have sought := h.sought
  have figures := sought.figures h.records h.length h.results
  rw [takeLast_eq (s := s.counted) h.opened h.matched ⟨h.owns.nodup, h.owns.parcels⟩ h.records h.rated, if_pos rfl] at ran
  have some' : c.members ++ [i] ≠ [] := List.append_ne_nil_of_right_ne_nil _ (List.cons_ne_nil _ _)
  generalize c.members ++ [i] = members at *
  have route : ((members.zip rs).filterMap (·.2)).head?.elim 0 (·.route) = r.route := by
    cases members with
    | nil => exact absurd rfl some'
    | cons j members =>
      cases rs with
      | nil => cases first
      | cons x rs =>
        cases first
        rfl
  rw [route] at ran
  generalize members.foldl State.seek (s.counted.ratedMembers members rs fs) = v at *
  have minute : v.minute = s.minute := by rw [sought.rest]; rfl
  have takings : v.ring.takings = s.ring.takings + 1 := by rw [sought.ring]
  have made : v.makeRequest t members v.ring.takings c.service r.route =
      request s t members c.service r (piecesFigures ps rs) := by
    rw [State.makeRequest, minute, takings, figures, request]
  rw [State.dispatch, made] at ran
  exact ran

/-- No candidate, the mask clear (R86). -/
theorem undispatched (h : s.Closes t i p c ps rs fs true) (first : rs[0]? = some (some r))
    (none : candidatesOf t s.minute r.route c.service = []) (mask : s.config.noDispatchMask = false) :
    ∃ u, exec .ratePositionActs s = .next u ∧ s.Closed u (c.members ++ [i]) ∧ u.home = s.home ∧ u.sequence = s.sequence ∧
      s.MembersRated u (c.members ++ [i]) rs (fun _ => .noDispatch) ∧
      SetExactly s.unit.summary u.unit.summary (fs ++ [.noDispatch]) := by
  have ran := h.seeks first
  rw [none, State.tryAll] at ran
  have sought := h.sought
  have all := h.allSeeking
  generalize (c.members ++ [i]).foldl State.seek (s.counted.ratedMembers (c.members ++ [i]) rs fs) = v at *
  have config : v.config = s.config := by rw [sought.rest]; rfl
  have settles (q : Request) : v.settleNoDispatch q =
      (v.raise .noDispatch).refuseSeeking q.members (some (DispatchFields.routeOnly q.route false)) .noDispatch :=
    if_neg (by rw [show (v.raise .noDispatch).config = s.config from config, mask]; exact Bool.false_ne_true)
  rw [settles] at ran
  obtain ⟨closed, home, sequence, slots, -, flags⟩ := sought.refused (setExactly_setFlag _ .noDispatch)
    (refuses_refuseSeeking (allSeeking_raise all .noDispatch) (some (DispatchFields.routeOnly r.route false)) .noDispatch)
  exact ⟨_, ran, closed, home, sequence, slots, flags⟩

/-- The lot of a first candidate at home, with room for the whole consignment (R66, R106, R110). -/
structure AtHome (s : State) (t : Tariff) (c : Consignment) (r : RatingResult) (f : Figures) (a : Candidate)
    (as : List Candidate) (h : HomeRecord) (d : Departure) : Prop where
  candidates : candidatesOf t s.minute r.route c.service = a :: as
  plan : s.planLot a.lot = some d
  here : d.home = s.own
  early : s.minute < d.cutOff
  one : s.OneHome a.lot h
  atHome : h.state = .atHome
  queue : h.queue = []
  stays : h.handingOver = false
  room : FitsIn f h.figures

variable {f : Figures} {a : Candidate} {as : List Candidate} {hr : HomeRecord} {d : Departure}

/-- The try of the first candidate: its debit, or NoNumber (R87, R110). -/
theorem tried (k : AtHome s t c r f a as hr d) {members : List Nat} (same : s.RatedWhole v members rs fs)
    (counter : s.sequence = some n) :
    v.tryAll (request s t members c.service r f) (candidatesOf t s.minute r.route c.service) =
      if n + members.length ≤ 100000 then
        (v.putHome a.lot { hr with figures := hr.figures.lessen f }).labelRequest (request s t members c.service r f)
          (d.fields (request s t members c.service r f) hr.reclaimed)
      else v.refuseNoNumber (request s t members c.service r f) := by
  have before {α : Type} (g : State → α) : g v = g _ := congrArg g same.rest
  have store : v.store = s.store := before State.store
  have minute : v.minute = s.minute := minute_congr (before State.clock)
  have one : v.OneHome a.lot hr := oneHome_congr (before State.home) k.one
  have plan : v.planLot a.lot = some d := (planLot_congr store a.lot).trans k.plan
  have inTime : s.minute < a.cutOff := cutOff_of_candidate (k.candidates ▸ List.mem_cons_self)
  have here : v.homeOf a.lot = v.own := (homeOf_eq plan).trans (k.here.trans (own_congr (before State.configuration)).symm)
  have counter' : v.sequence = some n := (before State.sequence).trans counter
  have owned := owned_atHome one k.atHome
  have tries : v.tryCandidate (request s t members c.service r f) a =
      v.tryDebit (.home a.lot) (request s t members c.service r f) := by
    rw [State.tryCandidate, if_neg (by rw [minute]; exact Nat.not_le.2 inTime), if_pos here, State.tryHome, one.1]
    dsimp only
    rw [k.atHome]
    dsimp only
    rw [if_pos (by rw [k.queue, k.stays]; rfl)]
  rw [k.candidates, State.tryAll, tries, State.tryDebit,
    debit_fits (q := request s t members c.service r f) owned plan (by rw [minute]; exact k.early) k.room]
  dsimp only
  have covers : v.canCover (request s t members c.service r f).pieces = true ↔ n + members.length ≤ 100000 :=
    canCover_iff counter'
  have taken : v.takeFigures (.home a.lot) (request s t members c.service r f).figures =
      v.putHome a.lot { hr with figures := hr.figures.lessen f } :=
    one.update fun x => { x with figures := x.figures.lessen f }
  rw [taken]
  exact if_congr covers rfl rfl

/-- The counter does not cover every piece (R87, R167). -/
theorem unnumbered (h : s.Closes t i p c ps rs fs true) (first : rs[0]? = some (some r))
    (k : AtHome s t c r (piecesFigures ps rs) a as hr d) (counter : s.sequence = some n)
    (short : 100000 < n + (c.members ++ [i]).length) :
    ∃ u, exec .ratePositionActs s = .next u ∧ s.Closed u (c.members ++ [i]) ∧ u.home = s.home ∧ u.sequence = s.sequence ∧
      s.MembersRated u (c.members ++ [i]) rs (fun _ => .noNumber) ∧ u.unit.labelsIssued = s.unit.labelsIssued ∧
      SetExactly s.unit.summary u.unit.summary (fs ++ [.noNumber]) := by
  have ran := h.seeks first
  rw [tried k h.sought counter, if_neg (Nat.not_le.2 short)] at ran
  obtain ⟨closed, home, sequence, slots, labels, flags⟩ := h.sought.refused (setExactly_setFlag _ .noNumber)
    (refuses_refuseSeeking (allSeeking_raise h.allSeeking .noNumber) (some (DispatchFields.routeOnly r.route false)) .noNumber)
  exact ⟨_, ran, closed, home, sequence, slots, labels, flags⟩

/-- The members debited, numbered and labelled as one unit (R66, R110, R166). -/
theorem labelled (h : s.Closes t i p c ps rs fs true) (first : rs[0]? = some (some r))
    (k : AtHome s t c r (piecesFigures ps rs) a as hr d) (counter : s.sequence = some n)
    (covered : n + (c.members ++ [i]).length ≤ 100000) :
    ∃ u, exec .ratePositionActs s = .next u ∧ s.Closed u (c.members ++ [i]) ∧
      u.sequence = some (n + (c.members ++ [i]).length) ∧
      u.home = (s.putHome a.lot { hr with figures := hr.figures.lessen (piecesFigures ps rs) }).home ∧
      (∀ k j x, (c.members ++ [i])[k]? = some j → rs[k]? = some (some x) →
        (u.slot j).tag = .complete ∧ (u.slot j).record = (s.slot j).record ∧ (u.slot j).rating = some x ∧
        (u.slot j).link = some ⟨c.members ++ [i], k + 1⟩ ∧
        ∃ l, (u.slot j).label = some l ∧ l.refusal = none ∧ l.trackingNumber = trackingNumber s.config (n + k) ∧
          l.consignmentNumber = trackingNumber s.config n ∧ l.pieceIndex = k + 1 ∧ l.charge = x.charge ∧
          l.departure = d.index ∧ l.cutOff = d.cutOff ∧ l.lot = d.lot ∧ l.dispatchPending = false ∧
          l.reclaimedLot = hr.reclaimed) ∧
      SetExactly s.unit.summary u.unit.summary fs := by
  have ran := h.seeks first
  have sought := h.sought
  have all := h.allSeeking
  have several := h.severalPieces
  rw [tried k sought counter, if_pos covered] at ran
  generalize c.members ++ [i] = members at *
  generalize members.foldl State.seek (s.counted.ratedMembers members rs fs) = v at *
  have before {α : Type} (g : State → α) : g v = g _ := congrArg g sought.rest
  have config : v.config = s.config := by rw [sought.rest]; rfl
  have labels := labels_labelRequest (s := v.putHome a.lot { hr with figures := hr.figures.lessen (piecesFigures ps rs) })
    (q := request s t members c.service r (piecesFigures ps rs)) ⟨all.nodup, all.seeking⟩
    ((before State.sequence).trans counter) (d.fields (request s t members c.service r (piecesFigures ps rs)) hr.reclaimed)
  have number : (v.putHome a.lot { hr with figures := hr.figures.lessen (piecesFigures ps rs) }).consignmentNumber
      (request s t members c.service r (piecesFigures ps rs)) n = trackingNumber s.config n := by
    rw [State.consignmentNumber]
    exact (if_neg (Nat.not_le.2 several)).trans (congrArg (trackingNumber · n) config)
  rw [number] at labels
  generalize (v.putHome a.lot { hr with figures := hr.figures.lessen (piecesFigures ps rs) }).labelRequest
    (request s t members c.service r (piecesFigures ps rs))
    (d.fields (request s t members c.service r (piecesFigures ps rs)) hr.reclaimed) = w at *
  have after {α : Type} (g : State → α) : g w = g _ := congrArg g labels.rest
  refine ⟨_, ran, sought.closed labels.others labels.length (after State.ring) ?_, after State.sequence, ?_,
    fun k' j x member result => ?_, ?_⟩
  · rw [labels.rest]
    rfl
  · refine (after State.home).trans ?_
    exact congrArg (fun l : List HomeRecord => l.map fun x => if x.lot = a.lot then
      { hr with figures := hr.figures.lessen (piecesFigures ps rs) } else x) (before State.home)
  · obtain ⟨q, -, slot⟩ := labels.labelled k' j member
    have slot' : w.advanceRate.slot j = _ := slot
    have same : (v.putHome a.lot { hr with figures := hr.figures.lessen (piecesFigures ps rs) }).slot j = _ :=
      sought.slot k' j _ member result
    rw [slot', same]
    exact ⟨rfl, rfl, rfl, rfl, _, rfl, rfl, congrArg (trackingNumber · (n + k')) config, rfl, rfl, rfl, rfl, rfl, rfl, rfl,
      rfl⟩
  · have summary : w.unit.summary = v.unit.summary := after (·.unit.summary)
    show SetExactly _ w.unit.summary fs
    rw [summary]
    exact sought.flags

end State.Closes

end

/-- A LAST piece that closes the open consignment. -/
theorem closes_of_ratePieces {s : State} {t : Tariff} {i : Nat} {p : ParcelRecord} {c : Consignment}
    {ps : List ParcelRecord} {rs : List (Option RatingResult)} {fs : List Flag} {whole : Bool}
    (takes : s.AboutToTake t i (.parcel p)) (fits : s.RingFits) (mark : p.pieceMark = 3)
    (opened : s.ring.consignment = some c) (service : p.service = c.service) (destination : p.destination = c.destination)
    (records : (c.members ++ [i]).map (fun j => (s.slot j).record) = ps.map (fun x => some (.parcel x)))
    (rated : ratePieces t s.activeScreen s.ratingMasks (c.members ++ [i]).length ps = (rs, fs, whole)) :
    s.Closes t i p c ps rs fs whole :=
  have inv := ringInv_of_fits fits
  ⟨takes, mark, opened, (matchedBy_iff c p).2 ⟨service, destination⟩, inv.ownsMembers_and opened takes.owns takes.notGrouped,
    (inv.members c opened).1, records, rated⟩

/-- Settles O47: each piece by its mark, and a closing consignment by how it is rated and what its first lot gives. -/
theorem piecesAreGrouped : Obligations.PiecesAreGrouped := by
  refine ⟨fun s t i p takes fits => ⟨exec_first takes, fun c mark opened service destination room =>
    exec_joins takes mark opened ((matchedBy_iff c p).2 ⟨service, destination⟩) room, exec_refusedAlone takes,
    fun c opened wrong => exec_refused takes fits opened wrong, ?_⟩,
    fun s t i x c takes fits opened apart => exec_endsOpen takes fits opened apart⟩
  intro c ps rs fs whole mark opened service destination members records rated linked closed
  have closes := closes_of_ratePieces takes fits mark opened service destination records rated
  refine ⟨fun refused => ?_, fun r n accepted first counter => ⟨fun noCandidate mask => ?_, ?_⟩⟩
  · subst refused
    obtain ⟨u, ran, rest⟩ := closes.refusedAtRating
    exact ⟨u, ran, rest⟩
  · subst accepted
    obtain ⟨u, ran, shut, home, sequence, rest⟩ := closes.undispatched first noCandidate mask
    exact ⟨u, ran, shut, home, sequence.trans counter, rest⟩
  · intro a as hr d candidates plan here early one atHome queue stays figures room
    subst accepted
    have same : figures = piecesFigures ps rs := congrArg (Figures.mk _ _) closes.count.symm
    clear_value figures
    subst same
    have lot : State.Closes.AtHome s t c r (piecesFigures ps rs) a as hr d :=
      ⟨candidates, plan, here, early, one, atHome, queue, stays, room⟩
    refine ⟨fun short => ?_, fun covered => ?_⟩
    · obtain ⟨u, ran, shut, home, sequence, rest⟩ := closes.unnumbered first lot counter short
      exact ⟨u, ran, shut, home, sequence.trans counter, rest⟩
    · obtain ⟨u, ran, rest⟩ := closes.labelled first lot counter covered
      exact ⟨u, ran, rest⟩

end Sys2Proof.Machine

end
